-- ==== Sys2Proof/Word.lean ====
section
/-! DEFINITION. The value types of the block (spec/00_scope.md R12, R13) and the plainest arithmetic on them. -/

namespace Sys2Proof

/-- `u8`: an unsigned byte (R13). -/
abbrev Byte := BitVec 8

/-- The 32-bit pattern behind `int32`, `uint32` and `f32` (R13). It is read as `int32` by `BitVec.toInt`
(`sext_32`) and as `uint32` by `BitVec.toNat` (`zext_32`). -/
abbrev Word := BitVec 32

/-- `wrap32(z)` and `u32(z)` of R13: the word congruent to `z` modulo 2^32. -/
def wrap32 (z : Int) : Word := BitVec.ofInt 32 z

/-- `clamp(v, lo, hi) = min(max(v, lo), hi)` (R14). -/
def clamp (v lo hi : Int) : Int := min (max v lo) hi

/-- US_PER_S, the microseconds of a second, fixed by the source (R10). -/
def usPerS : Nat := 1000000

/-- CHECKSUM_MODULUS, fixed by the source (R10). -/
def checksumModulus : Int := 123

/-- MAX_REPLY_LEN: the 92-byte dump and the 3-byte OK (R11). -/
def maxReplyLen : Nat := 95

end Sys2Proof
end

