-- ==== Sys2Proof/Config.lean ====
section
/-! DEFINITION. The configuration record of spec/00_scope.md R8, the test configuration TC of R9, and the free
values: opaque constants that nothing in Lean can evaluate. The constraints of R8 are `Config.Valid` in
WellFormed.lean. -/

namespace Sys2Proof

/-- The configuration record of R8. A model takes it as an argument; here it is a field of the machine's state
that no step changes, so that a statement over every state is a statement over every configuration (log 1). -/
structure Config where
  /-- QUEUE_N: the queue's slot count. -/
  queueN : Nat
  /-- MAX_SPEED: the hard maximum of an axis speed, steps/s. -/
  maxSpeed : Nat
  /-- SPEED_RESET (int32): the speed loaded at reset, before clamping. -/
  speedReset : Word
  /-- DEBOUNCE_K: consecutive agreeing polls before "pressed". -/
  debounceK : Nat
  /-- SW_ACTIVE_LEVEL: the raw level that means "pressed". -/
  swActiveLevel : Bool
  /-- FRAME_START_BYTE. -/
  frameStart : Byte
  /-- FRAME_END_BYTE. -/
  frameEnd : Byte
  /-- FRAME_BUF_LEN: the payload buffer's capacity in bytes. -/
  frameBufLen : Nat
  /-- OUT_BUF_LEN: the output FIFO's capacity in bytes. -/
  outBufLen : Nat
  /-- TAG_GET_STATUS. -/
  tagGetStatus : Word
  /-- TAG_SET_MODE. -/
  tagSetMode : Word
  /-- TAG_CALIBRATE. -/
  tagCalibrate : Word
  /-- TAG_SET_ANGLE_CORRECTION. -/
  tagSetAngleCorr : Word
  /-- TAG_ADD_POSITION. -/
  tagAddPosition : Word
  /-- TRAVEL_MM, binary32 bits: the amplitude travel in mm. -/
  travelMm : Word
  /-- OFFSET_MM, binary32 bits: the amplitude zero offset in mm. -/
  offsetMm : Word
  /-- PEN_TOL: the pen-position tolerance, in pen units. -/
  penTol : Nat
  /-- PEN_SETTLE_US: the pen settle hold. -/
  penSettleUs : Nat
  /-- IDLE_DISABLE_US: the Idle dwell before motor disable. -/
  idleDisableUs : Nat
  /-- STEP_PULSE_US: the minimum step-pulse high time; timing only. -/
  stepPulseUs : Nat
  /-- DIR_SETUP_US: the direction-to-step setup time; timing only. -/
  dirSetupUs : Nat
deriving DecidableEq, Repr

/-- The test configuration TC of R9 (the column "TC value" of R8): the spec's own choice, "not a claim about the
repository's constants". DESIGN CHOICE as the configuration of `State.reset` (log 1). -/
def Config.tc : Config where
  queueN := 4
  maxSpeed := 1000
  speedReset := 1000#32
  debounceK := 3
  swActiveLevel := true
  frameStart := 0x3C#8
  frameEnd := 0x3E#8
  frameBufLen := 32
  outBufLen := 128
  tagGetStatus := 0#32
  tagSetMode := 1#32
  tagCalibrate := 2#32
  tagSetAngleCorr := 3#32
  tagAddPosition := 4#32
  travelMm := 0x40000000#32
  offsetMm := 0x41200000#32
  penTol := 2
  penSettleUs := 20000
  idleDisableUs := 10000000
  stepPulseUs := 2
  dirSetupUs := 1

/-- FREE VALUE. The result of the n-th `trunc_i32` whose argument is NaN, infinite or out of range: "a draw: any
int32, chosen by the environment, under no law" (R15; spec/93_implementation_defined.md item 21; log 7). -/
opaque Config.truncDraw : Nat → Word

/-- FREE VALUE. The sign and payload bits of a NaN that an f32 operation produces, which IEEE 754 leaves open
(R15; log 8). -/
opaque Config.nanBits : Word

end Sys2Proof
end

