-- ==== Sys2Proof/Machine/Operands.lean ====
section
/-! DEFINITION. The operand forms: how a payload's bytes are read as fields and how a field is written as bytes.
Every multi-byte value is little-endian, in the stream and in the replies (spec/20_memory.md R81, R82), every field
is 4 contiguous bytes at a payload offset that is a multiple of 4 (R83, R84, spec/30_encoding.md R105), and no field
is scaled, shifted, converted or checked, so `int32` and raw `f32` fields are read alike. -/

namespace Sys2Proof.Machine

/-- `LE32(v)`: the four bytes of a word, bits [7:0] first (R119). -/
def le32 (w : Word) : List Byte :=
  [w.extractLsb' 0 8, w.extractLsb' 8 8, w.extractLsb' 16 8, w.extractLsb' 24 8]

/-- The word of four bytes, the first being bits [7:0] (R81). -/
def ofLE32 (b0 b1 b2 b3 : Byte) : Word := b3 ++ b2 ++ b1 ++ b0

/-- The successive 4-byte fields of a payload: element k is `MemRead(4k, 4)` (spec/00_scope.md R17), and there are
as many as lie wholly below the payload's length. Trailing bytes make no field. -/
def payloadWords : List Byte → List Word
  | b0 :: b1 :: b2 :: b3 :: rest => ofLE32 b0 b1 b2 b3 :: payloadWords rest
  | _ => []

end Sys2Proof.Machine
end

