-- ==== Sys2Proof/Syntax.lean ====
section
/-! DEFINITION. The commands of the block: one constructor per row of spec/opcode_table.json, with the payload
fields of its format (spec/30_encoding.md R106 to R111). A field is the raw 32-bit pattern of the payload (R105). -/

namespace Sys2Proof

/-- The five host commands. A payload with any other tag is no command: the protocol answers it by its
Unrecognized path (R113, spec/46_command_protocol.md R245), so it has no constructor. -/
inductive Instr where
  /-- GETSTATUS, format F_TAG (R106). -/
  | getStatus
  /-- SETMODE, format F_I32 (R107): `mode` is an int32 mode code (R110). -/
  | setMode (mode : Word)
  /-- CALIBRATE, format F_CAL (R108): five int32 fields and `stepsPerMm`, raw f32 bits. -/
  | calibrate (distanceSteps stepsPerMm minAmp maxAmp maxAngle maxEncoder : Word)
  /-- SETANGLECORR, format F_I32 (R109): `enabled` is an int32. -/
  | setAngleCorr (enabled : Word)
  /-- ADDPOS, format F_POS (R111): a waypoint's five int32 fields and the checksum. -/
  | addPos (ampPos anglePos penPos ampVel angleVel checksum : Word)
deriving DecidableEq, Repr

end Sys2Proof
end

