-- ==== Sys2Proof/Decode.lean ====
section
/-! DEFINITION. The decoder of a frame's payload, total on any bytes, and the encoder, both from
spec/30_encoding.md R100 to R119. -/

namespace Sys2Proof

/-- Why a payload is no command. -/
inductive Reject where
  /-- Shorter than 4 bytes (no tag is readable), or than the required length of its tag's format (R115,
  spec/46_command_protocol.md R246). The protocol answers PE_SHORT. -/
  | short (tag : Option Word)
  /-- The tag is none of the five (R113). The protocol answers by its Unrecognized path. -/
  | unknownTag (tag : Word)
deriving DecidableEq, Repr

/-- What the decoder answers. -/
abbrev Decoded := Except Reject Instr

/-- The fields of format F_I32 (R107, R109): one word after the tag. -/
def decodeI32 (tag : Word) (mk : Word → Instr) : List Word → Decoded
  | a :: _ => .ok (mk a)
  | _ => .error (.short (some tag))

/-- The fields of formats F_CAL and F_POS (R108, R111): six words after the tag. -/
def decodeSix (tag : Word) (mk : Word → Word → Word → Word → Word → Word → Instr) : List Word → Decoded
  | a :: b :: c :: d :: e :: f :: _ => .ok (mk a b c d e f)
  | _ => .error (.short (some tag))

/-- Selection by the exact 32-bit tag (R112), then the format's fields. Words past the required length are ignored
(R115). -/
def decodeWords (c : Config) : List Word → Decoded
  | [] => .error (.short none)
  | tag :: fields =>
    if tag = c.tagGetStatus then .ok .getStatus
    else if tag = c.tagSetMode then decodeI32 tag .setMode fields
    else if tag = c.tagCalibrate then decodeSix tag .calibrate fields
    else if tag = c.tagSetAngleCorr then decodeI32 tag .setAngleCorr fields
    else if tag = c.tagAddPosition then decodeSix tag .addPos fields
    else .error (.unknownTag tag)

/-- The command a payload stands for, or why it is none (R104 to R115; the checks of Dispatch in
spec/46_command_protocol.md R237, R246 after the overflow check). -/
def decode (c : Config) (payload : List Byte) : Decoded := decodeWords c (Machine.payloadWords payload)

/-- The tag of a command (R112). -/
def Instr.tag (c : Config) : Instr → Word
  | .getStatus => c.tagGetStatus
  | .setMode _ => c.tagSetMode
  | .calibrate _ _ _ _ _ _ => c.tagCalibrate
  | .setAngleCorr _ => c.tagSetAngleCorr
  | .addPos _ _ _ _ _ _ => c.tagAddPosition

/-- The fields of a command, in payload order (R106 to R111). -/
def Instr.fields : Instr → List Word
  | .getStatus => []
  | .setMode mode => [mode]
  | .calibrate distanceSteps stepsPerMm minAmp maxAmp maxAngle maxEncoder =>
    [distanceSteps, stepsPerMm, minAmp, maxAmp, maxAngle, maxEncoder]
  | .setAngleCorr enabled => [enabled]
  | .addPos ampPos anglePos penPos ampVel angleVel checksum =>
    [ampPos, anglePos, penPos, ampVel, angleVel, checksum]

/-- The required payload length of a command's format, in bytes (R106 to R111). -/
def Instr.requiredLength : Instr → Nat
  | .getStatus => 4
  | .setMode _ => 8
  | .calibrate _ _ _ _ _ _ => 28
  | .setAngleCorr _ => 8
  | .addPos _ _ _ _ _ _ => 28

/-- The payload of a command: its tag and its fields, each LE32 (R103, R119). -/
def encode (c : Config) (i : Instr) : List Byte := (i.tag c :: i.fields).flatMap Machine.le32

/-- A payload between its start run and its end run (R100; START_RUN = END_RUN = 3, R10). -/
def frame (c : Config) (payload : List Byte) : List Byte :=
  List.replicate 3 c.frameStart ++ payload ++ List.replicate 3 c.frameEnd

/-- `Encode(T, f1..fk)` of R119: the whole frame of a command. -/
def encodeFrame (c : Config) (i : Instr) : List Byte := frame c (encode c i)

/-- The longest payload a command requires, in bytes (R108, R111). -/
def longestPayload : Nat := 28

/-- Byte k of a number whose bit 0 is the least significant bit of the first byte. -/
def numByte (n k : Nat) : Byte := BitVec.ofNat 8 (n / 2 ^ (8 * k))

/-- The payload bytes of an instruction whose bits, numbered as spec/opcode_table.json numbers them, are `w`; the
bits at and above `nbits` are 0. -/
def tableBytes (nbits w : Nat) : List Byte :=
  (List.range longestPayload).map (numByte (w % 2 ^ nbits))

/-- The command the decoder reads from a table word, under TC, whose tags the table gives (R9, R112). -/
def decodeTableWord (nbits w : Nat) : Option Instr := (decode Config.tc (tableBytes nbits w)).toOption

end Sys2Proof
end

