-- ==== Sys2Proof/Machine/State.lean ====
section
/-! DEFINITION. The state of the block, as plain data: every register of spec/10_state.md, the ports of its R70 and
R71, the transport and the schedule of ticks (logs 2 and 3), and the state after reset
(spec/70_reset_and_hazards.md R290). -/

namespace Sys2Proof.Machine

/-- The two axes: AMP (amplitude) and ANG (angle) (spec/00_scope.md R22). -/
inductive Axis where
  | amp
  | ang
deriving DecidableEq, Repr

/-- The four limit switches (R16): amplitude-zero, amplitude-max, angle-zero, angle-max. -/
inductive Switch where
  | az
  | ax
  | gz
  | gx
deriving DecidableEq, Repr

/-- A per-axis register: `NAME[a]` (R16). -/
structure PerAxis (α : Type) where
  amp : α
  ang : α
deriving DecidableEq, Repr

/-- `NAME[a]`. -/
def PerAxis.get {α : Type} (p : PerAxis α) : Axis → α
  | .amp => p.amp
  | .ang => p.ang

/-- `NAME[a] <- v`. -/
def PerAxis.set {α : Type} (p : PerAxis α) (a : Axis) (v : α) : PerAxis α :=
  match a with
  | .amp => { p with amp := v }
  | .ang => { p with ang := v }

/-- A per-switch register: `NAME[s]` (R16). -/
structure PerSwitch (α : Type) where
  az : α
  ax : α
  gz : α
  gx : α
deriving DecidableEq, Repr

/-- `NAME[s]`. -/
def PerSwitch.get {α : Type} (p : PerSwitch α) : Switch → α
  | .az => p.az
  | .ax => p.ax
  | .gz => p.gz
  | .gx => p.gx

/-- The modes of MODE (spec/10_state.md R40). -/
inductive Mode where
  | idle
  | homing
  | calibrating
  | drawing
deriving DecidableEq, Repr

/-- The halves of a calibration run, PHASE (R41). -/
inductive Phase where
  | home
  | max
deriving DecidableEq, Repr

/-- The registers of one StepperAxis (R31 to R36). -/
structure AxisRegs where
  /-- POS, int32 (R31). -/
  pos : Word
  /-- TGT, int32 (R32). -/
  tgt : Word
  /-- SPD, uint32 in [1, MAX_SPEED] (R33). -/
  spd : Word
  /-- IVL, uint32 (R34). -/
  ivl : Word
  /-- DIR, true is forward (R35). -/
  dir : Bool
  /-- LAST, uint32 (R36). -/
  last : Word
deriving DecidableEq, Repr

/-- The calibration registers and flags (R37, R38). -/
structure CalRegs where
  /-- TRAVEL, int32. -/
  travel : Word
  /-- SPMM, f32 bits. -/
  spmm : Word
  /-- MIN_AMP, int32. -/
  minAmp : Word
  /-- MAX_AMP, int32. -/
  maxAmp : Word
  /-- MAX_ANG, int32. -/
  maxAng : Word
  /-- MAX_ENC, int32. -/
  maxEnc : Word
  /-- CALIBRATED (R38). -/
  calibrated : Bool
  /-- CALIBRATING (R38). -/
  calibrating : Bool
deriving DecidableEq, Repr

/-- The bookkeeping of homing and calibration sweeps (R41 to R43). -/
structure SweepRegs where
  /-- PHASE (R41). -/
  phase : Phase
  /-- HOMED[a] (R42). -/
  homed : PerAxis Bool
  /-- MAXED[a] (R42). -/
  maxed : PerAxis Bool
  /-- MOVED[a], int32 (R43). -/
  moved : PerAxis Word
deriving DecidableEq, Repr

/-- The registers of Drawing (R44 to R47). -/
structure DrawRegs where
  /-- LOADED (R44). -/
  loaded : Bool
  /-- CORR (R45). -/
  corr : Bool
  /-- SETTLE (R46). -/
  settle : Bool
  /-- SETTLE_T0, uint32 (R46). -/
  settleT0 : Word
  /-- PEN_LAST, int32 (R47). -/
  penLast : Word
  /-- PEN_VALID (R47). -/
  penValid : Bool
deriving DecidableEq, Repr

/-- The motor-enable registers (R48). -/
structure MotorRegs where
  /-- MOTOR_EN. -/
  en : Bool
  /-- IDLE_T0, uint32. -/
  idleT0 : Word
deriving DecidableEq, Repr

/-- The registers of one limit switch (R50). -/
structure SwitchRegs where
  /-- DB_CNT, in [0, DEBOUNCE_K]. -/
  cnt : Nat
  /-- SW_LVL, the raw level of the last sample. -/
  lvl : Bool
deriving DecidableEq, Repr

/-- A waypoint: five int32 fields (R51). -/
structure Waypoint where
  amp : Word
  ang : Word
  pen : Word
  vamp : Word
  vang : Word
deriving DecidableEq, Repr

/-- The queue's storage and indices (R51). -/
structure QueueRegs where
  /-- QBUF, slot 0 first. -/
  slots : List Waypoint
  /-- HEAD, next to consume. -/
  head : Nat
  /-- TAIL, next free slot. -/
  tail : Nat
deriving DecidableEq, Repr

/-- A byte store addressed by offset, as a list of cells in one canonical form (`Memory.wf`): offsets strictly
rising, and no cell equal to what an unlisted offset reads as. -/
abbrev Memory := List Host.Cell

/-- FSTATE (R52). -/
inductive FrameState where
  | hunt
  | inFrame
  | pending
deriving DecidableEq, Repr

/-- The framer's registers (R52). -/
structure FramerRegs where
  /-- FSTATE. -/
  st : FrameState
  /-- SRUN, in [0, 2]. -/
  srun : Nat
  /-- ERUN, in [0, 2]. -/
  erun : Nat
  /-- PBUF. -/
  pbuf : Memory
  /-- PLEN, in [0, FRAME_BUF_LEN]. -/
  plen : Nat
  /-- OVF. -/
  ovf : Bool
deriving DecidableEq, Repr

/-- One element of the output sequence of a pulse (spec/40_stepper_axis.md R135). -/
inductive LineEvent where
  /-- DIR_OUT is driven to the level. -/
  | driveDir (level : Bool)
  /-- At least that many microseconds pass. -/
  | hold (us : Nat)
  /-- STEP_OUT is driven to the level. -/
  | driveStep (level : Bool)
deriving DecidableEq, Repr

/-- One step pulse: its axis, its direction level and the output sequence that makes it (R71, R135). -/
structure Pulse where
  axis : Axis
  dir : Bool
  line : List LineEvent
deriving DecidableEq, Repr

/-- The cause codes of spec/60_exceptions.md R271. -/
inductive Cause where
  | none
  | short
  | overflow
  | checksum
  | badMode
  | queueFull
  | unknownTag
deriving DecidableEq, Repr

/-- The code of a cause (R271). -/
def Cause.code : Cause → Nat
  | .none => 0
  | .short => 1
  | .overflow => 2
  | .checksum => 3
  | .badMode => 4
  | .queueFull => 5
  | .unknownTag => 6

/-- One diagnostic record, `Diag(tag, cause)` (R276). -/
structure Diag where
  tag : Option Word
  cause : Cause
deriving DecidableEq, Repr

/-- The input record of a tick (R70). -/
structure TickIn where
  /-- The microsecond time base, uint32. -/
  now : Word
  /-- The host bytes the transport presents at this tick, in stream order. -/
  inBytes : List Byte
  /-- The raw level of each switch. -/
  swRaw : PerSwitch Bool
  /-- The net encoder count since the previous tick, int32. -/
  encDelta : Word
  /-- Whether the transport accepts one output byte at this tick. -/
  outReady : Bool
deriving DecidableEq, Repr

/-- A tick at `now` with the defaults of spec/30_encoding.md R122. -/
def TickIn.plain (now : Word) : TickIn :=
  { now := now, inBytes := [], swRaw := ⟨false, false, false, false⟩, encDelta := 0#32, outReady := true }

/-- The output record of a tick (R71), held as the last tick left it. -/
structure TickOut where
  /-- The step pulses, in the order they were emitted (spec/45_supervisor.md R216). -/
  pulses : List Pulse
  /-- DIR_OUT[a], held between pulses. -/
  dirOut : PerAxis Bool
  /-- STEP_OUT[a] when the tick is over. -/
  stepOut : PerAxis Bool
  /-- MOTOR_EN_OUT. -/
  motorEnOut : Bool
  /-- The pen position commanded, if any. -/
  penCmd : Option Word
  /-- The byte sent to the host, if any. -/
  outByte : Option Byte
  /-- The count of input bytes taken. -/
  consumed : Nat
  /-- The diagnostic records, in dispatch order. -/
  diag : List Diag
deriving DecidableEq, Repr

/-- Why the machine stops with a fault. The spec has no fatal condition (spec/60_exceptions.md R285); both faults
guard places that do not exist in a store, and no run from reset reaches either. -/
inductive Fault where
  /-- Raised by QRead and QWrite for a slot index that QBUF does not have. HEAD and TAIL are integers in
  [0, QUEUE_N - 1] (spec/10_state.md R51), so no reachable state raises it. Safe (log 10). -/
  | noSuchSlot (index : Nat)
  /-- Raised by OutPush beyond the capacity of OBUF (spec/10_state.md R53). Dispatch runs only with 95 bytes free
  (spec/46_command_protocol.md R235), so no reachable state raises it. Safe (log 11). -/
  | fifoOverrun
deriving DecidableEq, Repr

/-- Why the model gives an instruction no meaning. -/
inductive Refusal where
  /-- Raised only by an arm of `exec` whose instruction has no meaning yet; no arm is such. Safe. -/
  | notModelled (mnemonic : String)
deriving DecidableEq, Repr

/-- The state of the block and of the environment that drives it. -/
structure State where
  /-- The configuration record (spec/00_scope.md R8); no step changes it (log 1). -/
  cfg : Config
  /-- POS, TGT, SPD, IVL, DIR, LAST of each axis (R31 to R36). -/
  axes : PerAxis AxisRegs
  /-- The calibration registers and flags (R37, R38). -/
  cal : CalRegs
  /-- CORR_EN (R39). -/
  corrEn : Bool
  /-- MODE (R40). -/
  mode : Mode
  /-- PHASE, HOMED, MAXED, MOVED (R41 to R43). -/
  sweep : SweepRegs
  /-- LOADED, CORR, SETTLE, SETTLE_T0, PEN_LAST, PEN_VALID (R44 to R47). -/
  draw : DrawRegs
  /-- MOTOR_EN, IDLE_T0 (R48). -/
  motor : MotorRegs
  /-- ENC, int32 (R49). -/
  enc : Word
  /-- DB_CNT, SW_LVL of each switch (R50). -/
  sw : PerSwitch SwitchRegs
  /-- QBUF, HEAD, TAIL (R51). -/
  queue : QueueRegs
  /-- FSTATE, SRUN, ERUN, PBUF, PLEN, OVF (R52). -/
  framer : FramerRegs
  /-- OBUF, first byte to leave first; OCNT is its length (R53). -/
  obuf : List Byte
  /-- The tick-local `now` (spec/00_scope.md R19), as the current or last tick set it. -/
  now : Word
  /-- The output ports (R71). -/
  out : TickOut
  /-- The model's own: how many `trunc_i32` draws have been made (log 7). -/
  draws : Nat
  /-- The transport: the host bytes it holds that the block has not consumed (R54, R72; log 3). -/
  rx : List Byte
  /-- The environment: the ticks still to come, the next one first (log 2). -/
  ticks : List TickIn
deriving DecidableEq, Repr

/-- A waypoint of zeros: what a queue slot holds after reset. The spec leaves it unspecified (R292) and no rule reads
it; DESIGN CHOICE (log 5). -/
def Waypoint.zero : Waypoint := ⟨0#32, 0#32, 0#32, 0#32, 0#32⟩

/-- The speed after reset: clamp(SPEED_RESET, 1, MAX_SPEED) (R33). -/
def resetSpeed (c : Config) : Nat := (clamp c.speedReset.toInt 1 c.maxSpeed).toNat

/-- An axis after reset (R290). -/
def AxisRegs.reset (c : Config) : AxisRegs where
  pos := 0#32
  tgt := 0#32
  spd := BitVec.ofNat 32 (resetSpeed c)
  ivl := BitVec.ofNat 32 (usPerS / resetSpeed c)
  dir := true
  last := 0#32

/-- The output ports after reset, before the first tick (R290). -/
def TickOut.reset : TickOut where
  pulses := []
  dirOut := ⟨true, true⟩
  stepOut := ⟨false, false⟩
  motorEnOut := false
  penCmd := none
  outByte := none
  consumed := 0
  diag := []

/-- The state right after reset under a configuration (R290): every register at the value of R290's table. The
transport holds nothing and no tick is scheduled: "After reset, the block waits for its first tick" (R291). -/
def State.resetWith (c : Config) : State where
  cfg := c
  axes := ⟨AxisRegs.reset c, AxisRegs.reset c⟩
  cal := ⟨0#32, 0#32, 0#32, 0#32, 0#32, 0#32, false, false⟩
  corrEn := false
  mode := .idle
  sweep := ⟨.home, ⟨false, false⟩, ⟨false, false⟩, ⟨0#32, 0#32⟩⟩
  draw := ⟨false, false, false, 0#32, 0#32, false⟩
  motor := ⟨false, 0#32⟩
  enc := 0#32
  sw := ⟨⟨0, false⟩, ⟨0, false⟩, ⟨0, false⟩, ⟨0, false⟩⟩
  queue := ⟨List.replicate c.queueN Waypoint.zero, 0, 0⟩
  framer := ⟨.hunt, 0, 0, [], 0, false⟩
  obuf := []
  now := 0#32
  out := TickOut.reset
  draws := 0
  rx := []
  ticks := []

/-- The machine right after reset, under the test configuration TC (R9, R290; log 1). -/
def State.reset : State := State.resetWith Config.tc

end Sys2Proof.Machine
end

