-- ==== Sys2Proof/Machine/Ops.lean ====
section
/-! DEFINITION. The named operations over the state: one update per group of registers, the byte store, the reply, the
rejection of a command, and the clearing of the framer with which every dispatch ends. -/

namespace Sys2Proof.Machine

/-- What one step, one phase or one command answers. -/
abbrev Result := Host.Outcome State Fault Refusal

/-- Go on with `f` where `r` answers a next state; a fault or a refusal stands. -/
def andThen (r : Result) (f : State → Result) : Result :=
  match r with
  | .next s => f s
  | .fault e => .fault e
  | .refused e => .refused e

/-! ### Updates, one per group of registers -/

/-- Change the registers of one axis. -/
def State.onAxis (a : Axis) (f : AxisRegs → AxisRegs) (s : State) : State :=
  { s with axes := s.axes.set a (f (s.axes.get a)) }

/-- Change the calibration registers. -/
def State.onCal (f : CalRegs → CalRegs) (s : State) : State := { s with cal := f s.cal }

/-- CORR_EN <- v. -/
def State.setCorrEn (v : Bool) (s : State) : State := { s with corrEn := v }

/-- MODE <- m. -/
def State.setMode (m : Mode) (s : State) : State := { s with mode := m }

/-- Change PHASE, HOMED, MAXED, MOVED. -/
def State.onSweep (f : SweepRegs → SweepRegs) (s : State) : State := { s with sweep := f s.sweep }

/-- Change the registers of Drawing. -/
def State.onDraw (f : DrawRegs → DrawRegs) (s : State) : State := { s with draw := f s.draw }

/-- Change MOTOR_EN, IDLE_T0. -/
def State.onMotor (f : MotorRegs → MotorRegs) (s : State) : State := { s with motor := f s.motor }

/-- ENC <- v. -/
def State.setEnc (v : Word) (s : State) : State := { s with enc := v }

/-- Set the switch registers. -/
def State.setSw (v : PerSwitch SwitchRegs) (s : State) : State := { s with sw := v }

/-- Change QBUF, HEAD, TAIL. -/
def State.onQueue (f : QueueRegs → QueueRegs) (s : State) : State := { s with queue := f s.queue }

/-- Change the framer's registers. -/
def State.onFramer (f : FramerRegs → FramerRegs) (s : State) : State := { s with framer := f s.framer }

/-- Set the bytes of OBUF. -/
def State.setObuf (v : List Byte) (s : State) : State := { s with obuf := v }

/-- Set the tick-local `now`. -/
def State.setNow (v : Word) (s : State) : State := { s with now := v }

/-- Change the output ports. -/
def State.onOut (f : TickOut → TickOut) (s : State) : State := { s with out := f s.out }

/-- Set the count of draws. -/
def State.setDraws (v : Nat) (s : State) : State := { s with draws := v }

/-- Set the bytes the transport holds. -/
def State.setRx (v : List Byte) (s : State) : State := { s with rx := v }

/-- Set the ticks still to come. -/
def State.setTicks (v : List TickIn) (s : State) : State := { s with ticks := v }

/-! ### The byte store PBUF (spec/20_memory.md R80) -/

/-- What an unlisted offset reads as. PBUF's content is unspecified until it is written and is never read before
(spec/70_reset_and_hazards.md R292); DESIGN CHOICE (log 6). -/
def Memory.blank : Byte := 0#8

/-- Read one byte. -/
def Memory.read : Memory → Nat → Byte
  | [], _ => Memory.blank
  | (k, v) :: m, a => if k = a then v else Memory.read m a

/-- Write one byte, keeping the canonical form. -/
def Memory.write : Memory → Nat → Byte → Memory
  | [], a, b => if b = Memory.blank then [] else [(a, b)]
  | (k, v) :: m, a, b =>
    if a < k then (if b = Memory.blank then (k, v) :: m else (a, b) :: (k, v) :: m)
    else if a = k then (if b = Memory.blank then m else (a, b) :: m)
    else (k, v) :: Memory.write m a b

/-- Write successive bytes from an offset on. -/
def Memory.writeFrom : Memory → Nat → List Byte → Memory
  | m, _, [] => m
  | m, a, b :: bs => Memory.writeFrom (Memory.write m a b) (a + 1) bs

/-- The canonical form: offsets strictly rising, no cell equal to what an unlisted offset reads as. -/
def Memory.wf : Memory → Bool
  | [] => true
  | (k, v) :: m => v != Memory.blank && m.all (fun c => decide (k < c.1)) && Memory.wf m

/-- The payload PBUF[0..PLEN-1] (spec/46_command_protocol.md R233). -/
def FramerRegs.payload (f : FramerRegs) : List Byte := (List.range f.plen).map f.pbuf.read

/-! ### Replies and rejections -/

/-- The reply `OK`: ASCII "OK" and a newline (spec/30_encoding.md R116). -/
def okBytes : List Byte := [0x4F#8, 0x4B#8, 0x0A#8]

/-- The reply `FAIL`: ASCII "FAIL" and a newline (R116). -/
def failBytes : List Byte := [0x46#8, 0x41#8, 0x49#8, 0x4C#8, 0x0A#8]

/-- `OutPush(bytes); emit Diag(tag, cause)`: how every dispatch ends its command, with exactly one reply and one
diagnostic record (spec/46_command_protocol.md R237, spec/60_exceptions.md R276). OBUF has no place beyond
OUT_BUF_LEN; the dispatch hold of R235 keeps every push within it (log 11). -/
def reply (bytes : List Byte) (tag : Option Word) (cause : Cause) (s : State) : Result :=
  if s.obuf.length + bytes.length ≤ s.cfg.outBufLen then
    .next ((s.setObuf (s.obuf ++ bytes)).onOut fun o => { o with diag := o.diag ++ [⟨tag, cause⟩] })
  else .fault .fifoOverrun

/-- Taking an exception: `raise C(cause)` (spec/60_exceptions.md R272). It pushes FAIL and emits the record. No
register write of the command is made; nothing is saved and no control goes to a handler (R274). -/
def raise (tag : Option Word) (cause : Cause) (s : State) : Result := reply failBytes tag cause s

/-- ClearFrame(): what follows every dispatch, a raise included (spec/46_command_protocol.md R247). It is all there is
to returning from a rejection (spec/60_exceptions.md R275). -/
def clearFrame (s : State) : State :=
  s.onFramer fun f => { f with plen := 0, ovf := false, erun := 0, srun := 0, st := .hunt }

end Sys2Proof.Machine
end

