-- ==== Sys2Proof/Machine/Flags.lean ====
section
/-! DEFINITION. The flag computations: every derived signal of the block (spec/10_state.md R59 and the rules it
cites), the pacing and threshold predicates and the checksum. The block has no arithmetic condition codes (R55). -/

namespace Sys2Proof.Machine

/-- `u32(now - t)`: an elapsed time in microseconds, modulo 2^32 (spec/00_scope.md R19). -/
def elapsed (now t : Word) : Nat := (now - t).toNat

/-- `|x - y|` of two int32 values, in ℤ (R14). -/
def absDiff (x y : Word) : Nat := (x.toInt - y.toInt).natAbs

/-- The successor of a queue index (spec/43_position_queue.md R170). -/
def nextIndex (c : Config) (i : Nat) : Nat := (i + 1) % c.queueN

/-- q_empty (R171). -/
abbrev qEmpty (s : State) : Prop := s.queue.head = s.queue.tail

/-- q_full (R171). -/
abbrev qFull (s : State) : Prop := nextIndex s.cfg s.queue.tail = s.queue.head

/-- The occupancy (TAIL - HEAD) mod QUEUE_N (R172). -/
def qCount (s : State) : Nat := (s.queue.tail + s.cfg.queueN - s.queue.head) % s.cfg.queueN

/-- deb_pressed(s) (spec/41_debounce.md R153). -/
abbrev debPressed (k : Switch) (s : State) : Prop := (s.sw.get k).cnt = s.cfg.debounceK

/-- mapper_valid (spec/42_encoder_mapper.md R163). -/
abbrev mapperValid (s : State) : Prop := s.cal.maxEnc ≠ 0#32 ∧ s.cal.maxAng ≠ 0#32

/-- corr_active (spec/44_angle_corrector.md R181). -/
abbrev corrActive (s : State) : Prop := s.corrEn = true ∧ mapperValid s

/-- reached(a) (spec/10_state.md R59). -/
abbrev reached (a : Axis) (s : State) : Prop := (s.axes.get a).pos = (s.axes.get a).tgt

/-- ready(a), the pacing predicate, for an axis's registers (spec/40_stepper_axis.md R138). -/
abbrev AxisRegs.ready (now : Word) (r : AxisRegs) : Prop := r.ivl.toNat ≤ elapsed now r.last

/-- ready(a) at the tick's `now`. -/
abbrev ready (a : Axis) (s : State) : Prop := (s.axes.get a).ready s.now

/-- within(e, p): less than half of one encoder unit apart, exactly (spec/44_angle_corrector.md R183). -/
abbrev within (e p : Word) (s : State) : Prop :=
  2 * absDiff e p * s.cal.maxEnc.toInt.natAbs < s.cal.maxAng.toInt.natAbs

/-- At least MAX_REPLY_LEN bytes of OBUF are free: a pending frame may be dispatched
(spec/46_command_protocol.md R235). -/
abbrev replyRoom (s : State) : Prop := s.obuf.length + maxReplyLen ≤ s.cfg.outBufLen

/-- The checksum of a waypoint: the sum of its fields' remainders mod 123, in ℤ, each with the sign of its field
(R244, spec/00_scope.md R14). -/
def checksum (amp ang pen vamp vang : Word) : Int :=
  amp.toInt.tmod checksumModulus + ang.toInt.tmod checksumModulus + pen.toInt.tmod checksumModulus +
    vamp.toInt.tmod checksumModulus + vang.toInt.tmod checksumModulus

end Sys2Proof.Machine
end

