-- ==== Sys2Proof/Machine/Entry.lean ====
section
/-! DEFINITION. Mode entry: Enter(m), the single way MODE changes (spec/45_supervisor.md R193 to R197), and the mode
codes (spec/30_encoding.md R110). -/

namespace Sys2Proof.Machine

/-- The code of a mode (R110). -/
def Mode.code : Mode → Word
  | .idle => 0#32
  | .homing => 1#32
  | .calibrating => 2#32
  | .drawing => 3#32

/-- mode_of_code: the mode of a code; every other int32 is no mode (R110). -/
def Mode.ofCode (m : Word) : Option Mode :=
  if m = 0#32 then some .idle
  else if m = 1#32 then some .homing
  else if m = 2#32 then some .calibrating
  else if m = 3#32 then some .drawing
  else none

/-- EnterIdle() (R194). -/
def enterIdle (s : State) : State := s.onMotor fun r => { r with idleT0 := s.now }

/-- EnterHoming() (R195). -/
def enterHoming (s : State) : State := s.onSweep fun r => { r with homed := ⟨false, false⟩ }

/-- EnterCalibrating() (R196). -/
def enterCalibrating (s : State) : State :=
  (s.onCal fun _ => ⟨0#32, 0#32, 0#32, 0#32, 0#32, 0#32, false, true⟩).onSweep fun r =>
    { r with phase := .home, homed := ⟨false, false⟩ }

/-- The part of Enter(m) that every mode shares (R193). -/
def enterCommon (m : Mode) (s : State) : State :=
  (((s.setMode m).onDraw fun d => { d with loaded := false, corr := false, settle := false }).onCal fun c =>
    { c with calibrating := if m = .calibrating then c.calibrating else false }).onMotor fun r =>
    { r with en := if m = .idle then r.en else true }

/-- Enter(m) (R193), in full also when m is the current mode. Drawing has no entry of its own (R197). -/
def enter (m : Mode) (s : State) : State :=
  match m with
  | .idle => enterIdle (enterCommon .idle s)
  | .homing => enterHoming (enterCommon .homing s)
  | .calibrating => enterCalibrating (enterCommon .calibrating s)
  | .drawing => enterCommon .drawing s

end Sys2Proof.Machine
end

