-- ==== Sys2Proof/Machine/Queue.lean ====
section
/-! DEFINITION. PositionQueue, the circular waypoint buffer (spec/43_position_queue.md R170 to R178). -/

namespace Sys2Proof.Machine

/-- QRead(i) (spec/00_scope.md R17): the whole waypoint of a slot; `none` for a slot QBUF does not have. -/
def qRead (i : Nat) (s : State) : Option Waypoint := s.queue.slots[i]?

/-- QWrite(i, w) (R17): the whole waypoint of a slot; a slot QBUF does not have faults (log 10). -/
def qWrite (i : Nat) (w : Waypoint) (s : State) : Result :=
  if i < s.queue.slots.length then .next (s.onQueue fun q => { q with slots := q.slots.set i w })
  else .fault (.noSuchSlot i)

/-- tryEnqueue(w) (R173): no mutation on a full queue. It returns true exactly when the queue was not full. -/
def tryEnqueue (w : Waypoint) (s : State) : Result :=
  if qFull s then .next s
  else
    andThen (qWrite s.queue.tail w s) fun u =>
      .next (u.onQueue fun q => { q with tail := nextIndex s.cfg q.tail })

/-- peekNext() (R174): the waypoint at HEAD of a queue that is not empty. -/
def peekNext (s : State) : Option Waypoint := if qEmpty s then none else qRead s.queue.head s

/-- tryDequeue() (R175): no mutation on an empty queue (R176); the slot's content stays in place. -/
def tryDequeue (s : State) : State :=
  if qEmpty s then s else s.onQueue fun q => { q with head := nextIndex s.cfg q.head }

end Sys2Proof.Machine
end

