-- ==== Sys2Proof/Machine/Commands.lean ====
section
/-! DEFINITION. The five commands, one meaning per constructor of Instr (spec/46_command_protocol.md R238 to R244). A
command runs from Dispatch, with its operands read from a payload of at least the required length: the length check
of each rule, PE_SHORT, is the decoder's `Reject.short`, raised by `dispatchFrame` before any other action (log 15).
Each makes all its tests before its first write (spec/60_exceptions.md R272). -/

namespace Sys2Proof.Machine

/-- A flag as a status word: 0 or 1 (spec/30_encoding.md R117). -/
def flagWord (b : Bool) : Word := if b then 1#32 else 0#32

/-- The 23 words of the status dump, in order (R117). -/
def statusWords (s : State) : List Word :=
  [s.mode.code, flagWord s.cal.calibrated, flagWord s.cal.calibrating,
    s.axes.amp.pos, s.axes.amp.tgt, s.axes.amp.spd,
    s.axes.ang.pos, s.axes.ang.tgt, s.axes.ang.spd,
    s.cal.travel, s.cal.spmm, s.cal.minAmp, s.cal.maxAmp, s.cal.maxAng,
    s.enc, s.cal.maxEnc,
    BitVec.ofNat 32 s.queue.tail, BitVec.ofNat 32 s.queue.head,
    flagWord s.sw.az.lvl, flagWord s.sw.ax.lvl, flagWord s.sw.gz.lvl, flagWord s.sw.gx.lvl,
    flagWord s.corrEn]

/-- StatusDump(): 92 bytes, each word little-endian (R117, spec/20_memory.md R82). -/
def statusDump (s : State) : List Byte := (statusWords s).flatMap le32

/-- GETSTATUS (R239): the dump, then OK. -/
def execGetStatus (s : State) : Result :=
  reply (statusDump s ++ okBytes) (some s.cfg.tagGetStatus) .none s

/-- SETMODE (R240): Enter(mode) and OK; PE_BAD_MODE for a code that is no mode. -/
def execSetMode (mode : Word) (s : State) : Result :=
  match Mode.ofCode mode with
  | none => raise (some s.cfg.tagSetMode) .badMode s
  | some m => reply okBytes (some s.cfg.tagSetMode) .none (enter m s)

/-- CALIBRATE (R241): the six registers as given, with no range check; CALIBRATED <- 1, CALIBRATING <- 0. -/
def execCalibrate (distanceSteps stepsPerMm minAmp maxAmp maxAngle maxEncoder : Word) (s : State) : Result :=
  reply okBytes (some s.cfg.tagCalibrate) .none
    (s.onCal fun _ =>
      { travel := distanceSteps
        spmm := stepsPerMm
        minAmp := minAmp
        maxAmp := maxAmp
        maxAng := maxAngle
        maxEnc := maxEncoder
        calibrated := true
        calibrating := false })

/-- SETANGLECORR (R242): CORR_EN is set to the state given, any non-zero value meaning 1. -/
def execSetAngleCorr (enabled : Word) (s : State) : Result :=
  reply okBytes (some s.cfg.tagSetAngleCorr) .none (s.setCorrEn (decide (enabled ≠ 0#32)))

/-- ADDPOS (R243): the checksum first, then the room (spec/60_exceptions.md R273), then the enqueue; velocities are
stored unclamped. -/
def execAddPos (ampPos anglePos penPos ampVel angleVel chk : Word) (s : State) : Result :=
  if checksum ampPos anglePos penPos ampVel angleVel ≠ chk.toInt then
    raise (some s.cfg.tagAddPosition) .checksum s
  else if qFull s then raise (some s.cfg.tagAddPosition) .queueFull s
  else
    andThen (tryEnqueue ⟨ampPos, anglePos, penPos, ampVel, angleVel⟩ s)
      (reply okBytes (some s.cfg.tagAddPosition) .none)

end Sys2Proof.Machine
end

