-- ==== Sys2Proof/Machine/Dispatch.lean ====
section
/-! DEFINITION. The dispatch of a command to its meaning, one arm per constructor. -/

namespace Sys2Proof.Machine

def exec (i : Instr) (s : State) : Host.Outcome State Fault Refusal :=
  match i with
  | .getStatus => Sys2Proof.Machine.execGetStatus s
  | .setMode mode => Sys2Proof.Machine.execSetMode mode s
  | .calibrate distanceSteps stepsPerMm minAmp maxAmp maxAngle maxEncoder => Sys2Proof.Machine.execCalibrate distanceSteps stepsPerMm minAmp maxAmp maxAngle maxEncoder s
  | .setAngleCorr enabled => Sys2Proof.Machine.execSetAngleCorr enabled s
  | .addPos ampPos anglePos penPos ampVel angleVel chk => Sys2Proof.Machine.execAddPos ampPos anglePos penPos ampVel angleVel chk s

end Sys2Proof.Machine
end

