-- ==== Sys2Proof/Machine/Framer.lean ====
section
/-! DEFINITION. The byte-stream framer (spec/46_command_protocol.md R230 to R234). S is FRAME_START_BYTE and E is
FRAME_END_BYTE. -/

namespace Sys2Proof.Machine

/-- Append(x) (R232): the payload byte at offset PLEN, or the overflow of R234, which ends the frame. A frame that an
earlier Append ended takes nothing more. -/
def FramerRegs.append (c : Config) (x : Byte) (f : FramerRegs) : FramerRegs :=
  if f.st ≠ .inFrame then f
  else if c.frameBufLen ≤ f.plen then { f with ovf := true, st := .pending }
  else { f with pbuf := f.pbuf.write f.plen x, plen := f.plen + 1 }

/-- `repeat n times: Append(E)` (R232): the false terminator, re-emitted. -/
def FramerRegs.reEmit (c : Config) : Nat → FramerRegs → FramerRegs
  | 0, f => f
  | n + 1, f => FramerRegs.reEmit c n (f.append c c.frameEnd)

/-- FeedByte(b) with FSTATE = HUNT (R231). -/
def FramerRegs.hunt (c : Config) (b : Byte) (f : FramerRegs) : FramerRegs :=
  if b = c.frameStart then
    if f.srun + 1 = 3 then { f with srun := 0, erun := 0, plen := 0, ovf := false, st := .inFrame }
    else { f with srun := f.srun + 1 }
  else { f with srun := 0 }

/-- FeedByte(b) with FSTATE = IN_FRAME (R232). -/
def FramerRegs.collect (c : Config) (b : Byte) (f : FramerRegs) : FramerRegs :=
  if b = c.frameEnd then
    if f.erun + 1 = 3 then { f with erun := 0, st := .pending } else { f with erun := f.erun + 1 }
  else ({ f.reEmit c f.erun with erun := 0 } : FramerRegs).append c b

/-- FeedByte(b) (R231, R232). No byte is consumed in PENDING (R230), so the input phase never feeds one there. -/
def FramerRegs.feed (c : Config) (b : Byte) (f : FramerRegs) : FramerRegs :=
  match f.st with
  | .hunt => f.hunt c b
  | .inFrame => f.collect c b
  | .pending => f

/-- One byte taken from the transport: it is counted in `consumed` (spec/10_state.md R71) and fed. -/
def feedByte (b : Byte) (s : State) : State :=
  (s.onFramer (FramerRegs.feed s.cfg b)).onOut fun o => { o with consumed := o.consumed + 1 }

end Sys2Proof.Machine
end

