-- ==== Sys2Proof/Machine/Protocol.lean ====
section
/-! DEFINITION. CommandProtocol: the dispatch of a pending frame, the input phase and the output drain
(spec/46_command_protocol.md R235 to R249). -/

namespace Sys2Proof.Machine

/-- Unrecognized(tag) (R245): a diagnostic record, and OK. -/
def unrecognized (tag : Word) (s : State) : Result := reply okBytes (some tag) .unknownTag s

/-- What Dispatch does with the pending frame before ClearFrame, in the priority of spec/60_exceptions.md R273: the
overflow, then the decoder's verdict on the payload (R237). -/
def runFrame (s : State) : Result :=
  if s.framer.ovf = true then raise none .overflow s
  else
    match decode s.cfg s.framer.payload with
    | .ok i => exec i s
    | .error (.short tag) => raise tag .short s
    | .error (.unknownTag tag) => unrecognized tag s

/-- Dispatch() (R237): run the frame, then ClearFrame, also after a raise. -/
def dispatchFrame (s : State) : Result := andThen (runFrame s) fun u => .next (clearFrame u)

/-- The byte loop of InputPhase (R236). It stops at a frame that must be held (R235) or at the end of the bytes. -/
def inputLoop : List Byte → State → Result
  | [], s => .next s
  | b :: bs, s =>
    if (feedByte b s).framer.st = .pending then
      if replyRoom s then andThen (dispatchFrame (feedByte b s)) (inputLoop bs) else .next (feedByte b s)
    else inputLoop bs (feedByte b s)

/-- InputPhase(bytes), phase A of the tick (R236): first the frame that a former tick left pending. -/
def inputPhase (bytes : List Byte) (s : State) : Result :=
  if s.framer.st = .pending then
    if replyRoom s then andThen (dispatchFrame s) (inputLoop bytes) else .next s
  else inputLoop bytes s

/-- OutputDrain(out_ready), phase B of the tick (R248): at most one byte leaves. -/
def outputDrain (ready : Bool) (s : State) : State :=
  match s.obuf with
  | b :: rest => if ready then (s.setObuf rest).onOut fun o => { o with outByte := some b } else s
  | [] => s

end Sys2Proof.Machine
end

