-- ==== Sys2Proof/Machine/Axis.lean ====
section
/-! DEFINITION. StepperAxis, the rate-limited pulse generator (spec/40_stepper_axis.md R130 to R143). -/

namespace Sys2Proof.Machine

/-- setSpeed on an axis's registers (R131, R132). LAST is kept, so a speed change does not restart the pacing
interval (R141). -/
def AxisRegs.setSpeed (c : Config) (v : Word) (r : AxisRegs) : AxisRegs :=
  let speed := (clamp v.toInt 1 c.maxSpeed).toNat
  { r with spd := BitVec.ofNat 32 speed, ivl := BitVec.ofNat 32 (usPerS / speed) }

/-- setSpeed(a, v) (R131). The clamped value it returns is SPD[a]. -/
def setSpeed (a : Axis) (v : Word) (s : State) : State := s.onAxis a (AxisRegs.setSpeed s.cfg v)

/-- setTargetPosition(a, t) (R133). -/
def setTarget (a : Axis) (t : Word) (s : State) : State := s.onAxis a fun r => { r with tgt := t }

/-- setPosition(a, p) (R134): the estimate changes, no pulse is emitted. -/
def setPosition (a : Axis) (p : Word) (s : State) : State := s.onAxis a fun r => { r with pos := p }

/-- The output sequence of a pulse with direction d: drive DIR_OUT, wait the setup time, STEP_OUT high for the pulse
width, STEP_OUT low (R135). -/
def pulseLine (c : Config) (d : Bool) : List LineEvent :=
  [.driveDir d, .hold c.dirSetupUs, .driveStep true, .hold c.stepPulseUs, .driveStep false]

/-- `emit StepPulse(a, d)` (R135): the pulse joins the tick's output record; DIR_OUT[a] stays at d and STEP_OUT[a] is
low when the sequence is over (R143). -/
def emitPulse (a : Axis) (d : Bool) (s : State) : State :=
  s.onOut fun o =>
    { o with
      pulses := o.pulses ++ [⟨a, d, pulseLine s.cfg d⟩]
      dirOut := o.dirOut.set a d
      stepOut := o.stepOut.set a false }

/-- POS moved by one step in direction d, modulo 2^32 (R140). -/
def stepped (d : Bool) (p : Word) : Word := if d then p + 1#32 else p - 1#32

/-- The registers of an axis after a pulse in direction d at `now` (R136, R137, R139). -/
def AxisRegs.pulsed (now : Word) (d : Bool) (r : AxisRegs) : AxisRegs :=
  { r with dir := d, pos := stepped d r.pos, last := now }

/-- One pulse on axis a in direction d: DIR, the pulse, POS, LAST (R136, R137). -/
def pulse (a : Axis) (d : Bool) (s : State) : State := (emitPulse a d s).onAxis a (AxisRegs.pulsed s.now d)

/-- stepTowardTarget(a) (R136), with the signed comparison of R139. The flag it returns is not used by any rule. -/
def stepTowardTarget (a : Axis) (s : State) : State :=
  if reached a s then s
  else if ready a s then pulse a ((s.axes.get a).pos.slt (s.axes.get a).tgt) s
  else s

/-- singleStepAtSpeed(a, forward) (R137). It returns true exactly when ready(a) held at the call. -/
def singleStepAtSpeed (a : Axis) (forward : Bool) (s : State) : State :=
  if ready a s then pulse a forward s else s

end Sys2Proof.Machine
end

