-- ==== Sys2Proof/Machine/Sampling.lean ====
section
/-! DEFINITION. LimitSwitchMonitor, the debounce filter (spec/41_debounce.md R150 to R156), and the encoder
counter and mapper (spec/42_encoder_mapper.md R160 to R167). -/

namespace Sys2Proof.Machine

/-- One poll of a switch whose raw level is `raw` (R151, R152, R154): the counter saturates at DEBOUNCE_K and one
unpressed sample clears it (R155). -/
def SwitchRegs.poll (c : Config) (raw : Bool) (r : SwitchRegs) : SwitchRegs :=
  { cnt := if raw = c.swActiveLevel then min (r.cnt + 1) c.debounceK else 0, lvl := raw }

/-- All four channels, polled once per tick (R150). -/
def pollAll (raw : PerSwitch Bool) (s : State) : State :=
  s.setSw
    { az := s.sw.az.poll s.cfg raw.az
      ax := s.sw.ax.poll s.cfg raw.ax
      gz := s.sw.gz.poll s.cfg raw.gz
      gx := s.sw.gx.poll s.cfg raw.gx }

/-- Encoder accumulation, modulo 2^32 (R160). -/
def accumulateEncoder (delta : Word) (s : State) : State := s.setEnc (s.enc + delta)

/-- resetEncoderCount() (R161). -/
def resetEncoderCount (s : State) : State := s.setEnc 0#32

/-- linearMap (R162): exact in ℤ, divided with truncation toward zero, then wrapped; 0 for an empty input range. -/
def linearMap (x inLo inHi outLo outHi : Word) : Word :=
  if inHi = inLo then 0#32
  else
    wrap32 (((x.toInt - inLo.toInt) * (outHi.toInt - outLo.toInt)).tdiv (inHi.toInt - inLo.toInt) + outLo.toInt)

/-- encoderToAnglePos(c) (R164). -/
def encoderToAnglePos (c : Word) (s : State) : Word := linearMap c 0#32 s.cal.maxEnc 0#32 s.cal.maxAng

/-- anglePosToEncoder(p) (R165). -/
def anglePosToEncoder (p : Word) (s : State) : Word := linearMap p 0#32 s.cal.maxAng 0#32 s.cal.maxEnc

/-- Phase C of the tick: the encoder, then the switches (spec/45_supervisor.md R190). -/
def sample (t : TickIn) (s : State) : State := pollAll t.swRaw (accumulateEncoder t.encDelta s)

end Sys2Proof.Machine
end

