-- ==== Sys2Proof/Machine/Corrector.lean ====
section
/-! DEFINITION. AngleCorrector, the feedback loop on the angle axis (spec/44_angle_corrector.md R180 to R187). There is
no timeout: the correction phase may go on forever (R187). -/

namespace Sys2Proof.Machine

/-- What arrivalCheck and correctionStep return. -/
inductive Verdict where
  | complete
  | goOn
deriving DecidableEq, Repr

/-- arrivalCheck() (R182), after both axes have reached their targets. -/
def arrivalCheck (s : State) : State × Verdict :=
  if ¬ corrActive s then (s, .complete)
  else if within (encoderToAnglePos s.enc s) s.axes.ang.pos s then (s, .complete)
  else (s.onDraw fun d => { d with corr := true }, .goOn)

/-- converge() (R185): the re-anchor. TGT[ANG] is not changed. -/
def converge (s : State) : State :=
  (setPosition .ang (encoderToAnglePos s.enc s) s).onDraw fun d => { d with corr := false }

/-- correctionStep() (R184), with the abandonment of R186. The comparison is with the live ENC. -/
def correctionStep (s : State) : State × Verdict :=
  if ¬ corrActive s then (s.onDraw fun d => { d with corr := false }, .complete)
  else if s.enc = anglePosToEncoder s.axes.ang.tgt s then (converge s, .complete)
  else (singleStepAtSpeed .ang (s.enc.slt (anglePosToEncoder s.axes.ang.tgt s)) s, .goOn)

end Sys2Proof.Machine
end

