-- ==== Sys2Proof/Machine/F32.lean ====
section
/-! DEFINITION. The binary32 operations of spec/00_scope.md R15, on raw bits: conversion from an integer, division
and multiplication with round-to-nearest, ties-to-even, and truncation to int32.

A finite binary32 is an integer number of units of 2^-149 (the least subnormal), so each operation computes its
exact result as a quotient of naturals and rounds once (log 9). -/

namespace Sys2Proof.Machine

/-- The sign bit. -/
def f32Sign (x : Word) : Bool := x.msb

/-- The biased exponent field. -/
def f32Exp (x : Word) : Nat := x.toNat / 2 ^ 23 % 256

/-- The fraction field. -/
def f32Frac (x : Word) : Nat := x.toNat % 2 ^ 23

/-- Neither infinite nor NaN. -/
abbrev f32Finite (x : Word) : Prop := f32Exp x ≠ 255

/-- An infinity. -/
abbrev f32IsInf (x : Word) : Prop := f32Exp x = 255 ∧ f32Frac x = 0

/-- A NaN. -/
abbrev f32IsNaN (x : Word) : Prop := f32Exp x = 255 ∧ f32Frac x ≠ 0

/-- The magnitude of a finite binary32, counted in units of 2^-149. -/
def f32Units (x : Word) : Nat :=
  if f32Exp x = 0 then f32Frac x else (f32Frac x + 2 ^ 23) * 2 ^ (f32Exp x - 1)

/-- The integer nearest to n/d, ties to even. -/
def roundEven (n d : Nat) : Nat :=
  if 2 * (n % d) < d then n / d
  else if d < 2 * (n % d) then n / d + 1
  else n / d + n / d % 2

/-- The magnitude bits of the infinities. -/
def f32InfMag : Nat := 0x7F800000

/-- The magnitude bits (exponent and fraction) of the non-negative rational n/d rounded to binary32; at or beyond
the overflow threshold they are those of infinity. `q` is the exponent of the result's last place above 2^-149. -/
def f32RoundMag (n d : Nat) : Nat :=
  let units := n * 2 ^ 149
  let q := Nat.log2 (units / d) - 23
  min (q * 2 ^ 23 + roundEven units (d * 2 ^ q)) f32InfMag

/-- A sign and magnitude bits put together. -/
def f32Pack (neg : Bool) (mag : Nat) : Word :=
  BitVec.ofNat 32 (if neg then mag + 2 ^ 31 else mag)

/-- A quiet NaN whose sign and payload are free (log 8). -/
def f32NaN : Word := 0x7FC00000#32 ||| (Config.nanBits &&& 0x803FFFFF#32)

/-- `f32_from_int(z)` (R15). -/
def f32FromInt (z : Int) : Word := f32Pack (decide (z < 0)) (f32RoundMag z.natAbs 1)

/-- `f32_div(a, b)` (R15). -/
def f32Div (a b : Word) : Word :=
  let neg := f32Sign a != f32Sign b
  if f32IsNaN a ∨ f32IsNaN b then f32NaN
  else if f32IsInf a then (if f32IsInf b then f32NaN else f32Pack neg f32InfMag)
  else if f32IsInf b then f32Pack neg 0
  else if f32Units b = 0 then (if f32Units a = 0 then f32NaN else f32Pack neg f32InfMag)
  else f32Pack neg (f32RoundMag (f32Units a) (f32Units b))

/-- `f32_mul(a, b)` (R15). -/
def f32Mul (a b : Word) : Word :=
  let neg := f32Sign a != f32Sign b
  if f32IsNaN a ∨ f32IsNaN b then f32NaN
  else if f32IsInf a then (if f32Finite b ∧ f32Units b = 0 then f32NaN else f32Pack neg f32InfMag)
  else if f32IsInf b then (if f32Units a = 0 then f32NaN else f32Pack neg f32InfMag)
  else f32Pack neg (f32RoundMag (f32Units a * f32Units b) (2 ^ 149 * 2 ^ 149))

/-- The truncation toward zero of a finite binary32, in ℤ. -/
def f32Trunc (x : Word) : Int :=
  let mag : Int := Int.ofNat (f32Units x / 2 ^ 149)
  if f32Sign x then -mag else mag

/-- `trunc_i32(f)` where R15 gives it a value: a finite argument whose truncation is in int32 range. `none` stands
for the draw. -/
def truncI32 (x : Word) : Option Word :=
  if f32Finite x ∧ -2 ^ 31 ≤ f32Trunc x ∧ f32Trunc x < 2 ^ 31 then some (wrap32 (f32Trunc x)) else none

end Sys2Proof.Machine
end

