-- ==== Sys2Proof/Machine/Sequencer.lean ====
section
/-! DEFINITION. MotionSupervisor's mode steps: Idle, homing, calibration, drawing (spec/45_supervisor.md R192, R198 to
R213). Homing and calibration have no timeout (R217). -/

namespace Sys2Proof.Machine

/-! ### Homing -/

/-- zero(a): the zero switch of an axis (R199). -/
def zeroSwitch : Axis → Switch
  | .amp => .az
  | .ang => .gz

/-- max(a): the max switch of an axis (R203). -/
def maxSwitch : Axis → Switch
  | .amp => .ax
  | .ang => .gx

/-- Snap(a): AMP to MIN_AMP (R200); ANG to 0, and the encoder count reset (R201). -/
def snap (a : Axis) (s : State) : State :=
  match a with
  | .amp => setTarget .amp s.cal.minAmp (setPosition .amp s.cal.minAmp s)
  | .ang => resetEncoderCount (setTarget .ang 0#32 (setPosition .ang 0#32 s))

/-- One axis's part of HomeStep (R199). -/
def homeAxis (a : Axis) (s : State) : State :=
  if s.sweep.homed.get a = true then s
  else if debPressed (zeroSwitch a) s then
    (snap a s).onSweep fun r => { r with homed := r.homed.set a true }
  else singleStepAtSpeed a false s

/-- HomeDone() (R202). -/
def homeDone (s : State) : State :=
  if s.mode = .homing then enter .idle s
  else s.onSweep fun r => { r with phase := .max, maxed := ⟨false, false⟩, moved := ⟨0#32, 0#32⟩ }

/-- HomeStep() (R199): AMP, then ANG (R216). -/
def homeStep (s : State) : State :=
  let t := homeAxis .ang (homeAxis .amp s)
  if t.sweep.homed.amp = true ∧ t.sweep.homed.ang = true then homeDone t else t

/-! ### Calibration, max phase -/

/-- `trunc_i32(f)` as a rule uses it (spec/00_scope.md R15): where it has no value, a fresh draw (log 7). -/
def truncOrDraw (f : Word) (s : State) : Word × State :=
  match truncI32 f with
  | some v => (v, s)
  | none => (Config.truncDraw s.draws, s.setDraws (s.draws + 1))

/-- DeriveAmp() (R204). -/
def deriveAmp (s : State) : State :=
  let travel := s.sweep.moved.amp
  let spmm := f32Div (f32FromInt travel.toInt) s.cfg.travelMm
  let r := truncOrDraw (f32Mul s.cfg.offsetMm spmm) s
  r.2.onCal fun c =>
    { c with travel := travel, spmm := spmm, minAmp := r.1, maxAmp := travel + r.1 }

/-- DeriveAng() (R205). -/
def deriveAng (s : State) : State :=
  s.onCal fun c => { c with maxAng := s.sweep.moved.ang, maxEnc := s.enc }

/-- The derivation of an axis (R203). -/
def derive (a : Axis) (s : State) : State :=
  match a with
  | .amp => deriveAmp s
  | .ang => deriveAng s

/-- One axis's part of CalMaxStep (R203): MOVED counts the pulses, modulo 2^32 (spec/10_state.md R43). -/
def calMaxAxis (a : Axis) (s : State) : State :=
  if s.sweep.maxed.get a = true then s
  else if debPressed (maxSwitch a) s then
    (derive a s).onSweep fun r => { r with maxed := r.maxed.set a true }
  else if ready a s then
    (singleStepAtSpeed a true s).onSweep fun r => { r with moved := r.moved.set a (r.moved.get a + 1#32) }
  else s

/-- CalDone() (R206). -/
def calDone (s : State) : State :=
  enter .homing (s.onCal fun c => { c with calibrated := true, calibrating := false })

/-- CalMaxStep() (R203): AMP, then ANG (R216). -/
def calMaxStep (s : State) : State :=
  let t := calMaxAxis .ang (calMaxAxis .amp s)
  if t.sweep.maxed.amp = true ∧ t.sweep.maxed.ang = true then calDone t else t

/-! ### Drawing -/

/-- PenUpdate(p) (R210). -/
def penUpdate (p : Word) (s : State) : State :=
  if s.draw.penValid = false ∨ s.cfg.penTol < absDiff p s.draw.penLast then
    (s.onOut fun o => { o with penCmd := some p }).onDraw fun d =>
      { d with penLast := p, penValid := true, settle := true, settleT0 := s.now }
  else s

/-- LoadWaypoint(w) (R209). HEAD is not advanced and no axis steps. -/
def loadWaypoint (w : Waypoint) (s : State) : State :=
  (penUpdate w.pen
    (setSpeed .ang w.vang (setSpeed .amp w.vamp (setTarget .ang w.ang (setTarget .amp w.amp s))))).onDraw fun d =>
    { d with loaded := true, corr := false }

/-- Complete() (R212). -/
def complete (s : State) : State := (tryDequeue s).onDraw fun d => { d with loaded := false }

/-- `if … = COMPLETE then Complete()` (R207). -/
def completeIf : State × Verdict → State
  | (s, .complete) => complete s
  | (s, .goOn) => s

/-- The stepping part of DrawStep (R211). -/
def stepAxes (s : State) : State :=
  let t := stepTowardTarget .ang (stepTowardTarget .amp s)
  if reached .amp t ∧ reached .ang t then completeIf (arrivalCheck t) else t

/-- The settle hold lasts (R208). -/
abbrev settling (s : State) : Prop :=
  s.draw.settle = true ∧ elapsed s.now s.draw.settleT0 < s.cfg.penSettleUs

/-- DrawStep after the settle hold (R207): load, correct or step. -/
def drawRun (s : State) : Result :=
  if s.draw.loaded = false then
    if qEmpty s then .next (enter .idle s)
    else
      match peekNext s with
      | some w => .next (loadWaypoint w s)
      | none => .fault (.noSuchSlot s.queue.head)
  else if s.draw.corr = true then .next (completeIf (correctionStep s))
  else .next (stepAxes s)

/-- DrawStep() (R207): nothing during the hold; when it has expired, SETTLE <- 0 and the tick goes on (R208). -/
def drawStep (s : State) : Result :=
  if settling s then .next s else drawRun (s.onDraw fun d => { d with settle := false })

/-! ### The mode step -/

/-- ModeStep(), phase D of the tick (R192). Idle does nothing (R198). -/
def modeStep (s : State) : Result :=
  match s.mode with
  | .idle => .next s
  | .homing => .next (homeStep s)
  | .calibrating =>
    match s.sweep.phase with
    | .home => .next (homeStep s)
    | .max => .next (calMaxStep s)
  | .drawing => drawStep s

end Sys2Proof.Machine
end

