-- ==== Sys2Proof/Machine/Tick.lean ====
section
/-! DEFINITION. The tick, the block's one kind of step (spec/45_supervisor.md R190 to R192, R214), what the transport
does around it (spec/10_state.md R72), and how a pending frame is placed. -/

namespace Sys2Proof.Machine

/-- The start of a tick: `now` is the record's throughout (R190), and the output record is a fresh one, DIR_OUT,
STEP_OUT and MOTOR_EN_OUT being held levels (spec/10_state.md R71). -/
def beginTick (t : TickIn) (s : State) : State :=
  (s.setNow t.now).onOut fun o =>
    { o with pulses := [], penCmd := none, outByte := none, consumed := 0, diag := [] }

/-- The Idle dwell has passed with the motors enabled (R214). -/
abbrev dwellOver (s : State) : Prop :=
  s.mode = .idle ∧ s.motor.en = true ∧ s.cfg.idleDisableUs ≤ elapsed s.now s.motor.idleT0

/-- MotorEnableUpdate(), phase E (R214): the dwell, then MOTOR_EN_OUT <- MOTOR_EN. -/
def motorEnableUpdate (s : State) : State :=
  let t := if dwellOver s then s.onMotor fun r => { r with en := false } else s
  t.onOut fun o => { o with motorEnOut := t.motor.en }

/-- Phases B to E: drain, sampling, mode step, motor enable (R190). -/
def afterInput (t : TickIn) (s : State) : Result :=
  andThen (modeStep (sample t (outputDrain t.outReady s))) fun u => .next (motorEnableUpdate u)

/-- Tick(in) (R190): the block alone, on any input record. Its output record is the next state's `out`. -/
def tick (t : TickIn) (s : State) : Result := andThen (inputPhase t.inBytes (beginTick t s)) (afterInput t)

/-- A tick with the transport's duty of R72: the bytes it holds unconsumed are presented first, before the new ones,
and what the block does not consume stays at the head of the stream (log 3). -/
def transportTick (t : TickIn) (s : State) : Result :=
  andThen (tick { t with inBytes := s.rx ++ t.inBytes } s) fun u =>
    .next (u.setRx ((s.rx ++ t.inBytes).drop u.out.consumed))

/-- The next tick of the schedule. Between ticks the block does nothing (spec/60_exceptions.md R281 duty 8,
spec/70_reset_and_hazards.md R291): with none scheduled the state stays (log 2). -/
def scheduledTick (s : State) : Result :=
  match s.ticks with
  | [] => .next s
  | t :: rest => transportTick t (s.setTicks rest)

/-- A state whose next tick dispatches exactly the frame with this payload: the framer holds it pending, OBUF has room
for the reply (it is emptied only where it has not), the transport holds no further byte, and the next tick has the
default inputs of spec/30_encoding.md R122 (log 4). -/
def placeFrame (payload : List Byte) (s : State) : State :=
  (((s.onFramer fun f =>
      { st := .pending
        srun := 0
        erun := 0
        pbuf := f.pbuf.writeFrom 0 payload
        plen := payload.length
        ovf := false }).setObuf (if replyRoom s then s.obuf else [])).setRx []).setTicks
    (TickIn.plain s.now :: s.ticks)

end Sys2Proof.Machine
end

