-- ==== Sys2Proof/Machine/Step.lean ====
section
/-! DEFINITION. One step of the machine: the next scheduled tick (spec/45_supervisor.md R190). -/

namespace Sys2Proof.Machine

/-- One step: the next tick of the schedule, or nothing while no tick has arrived. -/
def step (s : State) : Host.Outcome State Fault Refusal := scheduledTick s

/-- The state with a command's bits, numbered as spec/opcode_table.json numbers them, stored where the next step
fetches its next command: pending in PBUF (log 4). -/
def State.withFetchWord (s : State) (nbits w : Nat) : State := placeFrame (tableBytes nbits w) s

end Sys2Proof.Machine
end

