-- ==== Sys2Proof/WellFormed.lean ====
section
/-! DEFINITION. The checks: what a configuration must satisfy (spec/00_scope.md R8), and which payloads and commands
a frame can deliver (spec/30_encoding.md R114). -/

namespace Sys2Proof

/-- The five tags are pairwise distinct (R8). -/
abbrev Config.TagsDistinct (c : Config) : Prop :=
  [c.tagGetStatus, c.tagSetMode, c.tagCalibrate, c.tagSetAngleCorr, c.tagAddPosition].Nodup

/-- The column "constraint" of R8. -/
abbrev Config.Valid (c : Config) : Prop :=
  (2 ≤ c.queueN ∧ c.queueN ≤ 2 ^ 31) ∧
  (1 ≤ c.maxSpeed ∧ c.maxSpeed ≤ usPerS) ∧
  (1 ≤ c.debounceK ∧ c.debounceK ≤ 255) ∧
  c.frameStart ≠ c.frameEnd ∧
  28 ≤ c.frameBufLen ∧
  maxReplyLen ≤ c.outBufLen ∧
  c.TagsDistinct ∧
  (Machine.f32Finite c.travelMm ∧ Machine.f32Sign c.travelMm = false ∧ Machine.f32Units c.travelMm ≠ 0) ∧
  Machine.f32Finite c.offsetMm ∧
  c.penSettleUs < 2 ^ 31 ∧
  c.idleDisableUs < 2 ^ 31 ∧
  0 < c.stepPulseUs

/-- Three consecutive bytes `e` stand somewhere in the list. -/
def hasTripleRun (e : Byte) : List Byte → Bool
  | a :: b :: d :: rest => (a == e && b == e && d == e) || hasTripleRun e (b :: d :: rest)
  | _ => false

/-- R114 (a), (b), (c): the framer delivers this payload intact. -/
abbrev Deliverable (c : Config) (payload : List Byte) : Prop :=
  hasTripleRun c.frameEnd payload = false ∧ payload.getLast? ≠ some c.frameEnd ∧ payload.length ≤ c.frameBufLen

/-- R114 (d), (e): bytes the host may send before a frame without spoiling its start run. -/
abbrev CleanGap (c : Config) (bytes : List Byte) : Prop :=
  hasTripleRun c.frameStart bytes = false ∧ bytes.getLast? ≠ some c.frameStart

/-- A command whose frame reaches the dispatcher as it was encoded (R114, R119). Every field value has a meaning
once it is dispatched, so nothing else is asked of a field. -/
abbrev Instr.WellFormed (c : Config) (i : Instr) : Prop := Deliverable c (encode c i)

end Sys2Proof
end

