-- ==== Sys2Proof/Safety.lean ====
section
/-! DEFINITION. What counts as a safe state and a safe tick, in the terms claims use: the ranges spec/10_state.md gives
the registers, the relations between them that the rules keep, and the environment's duties of
spec/60_exceptions.md R281 that can be said of a schedule. -/

namespace Sys2Proof.Machine

/-- SPD in [1, MAX_SPEED] and IVL = 1000000 div SPD (spec/10_state.md R33, R34). -/
abbrev AxisRegs.InRange (c : Config) (r : AxisRegs) : Prop :=
  1 ≤ r.spd.toNat ∧ r.spd.toNat ≤ c.maxSpeed ∧ r.ivl.toNat = usPerS / r.spd.toNat

/-- Both axes' speeds and intervals are in range. -/
abbrev AxesInRange (s : State) : Prop := s.axes.amp.InRange s.cfg ∧ s.axes.ang.InRange s.cfg

/-- Every DB_CNT is in [0, DEBOUNCE_K] (R50). -/
abbrev SwitchesInRange (s : State) : Prop :=
  s.sw.az.cnt ≤ s.cfg.debounceK ∧ s.sw.ax.cnt ≤ s.cfg.debounceK ∧
  s.sw.gz.cnt ≤ s.cfg.debounceK ∧ s.sw.gx.cnt ≤ s.cfg.debounceK

/-- QBUF has QUEUE_N slots and HEAD and TAIL index them (R51). -/
abbrev QueueInRange (s : State) : Prop :=
  s.queue.slots.length = s.cfg.queueN ∧ s.queue.head < s.cfg.queueN ∧ s.queue.tail < s.cfg.queueN

/-- The framer's registers are in range (R52): PBUF is canonical and lies within FRAME_BUF_LEN, PLEN does not exceed
it, a run count is held only in the state that counts it, and only a pending frame has overflowed. -/
abbrev FramerRegs.InRange (c : Config) (f : FramerRegs) : Prop :=
  f.pbuf.wf = true ∧ (∀ cell ∈ f.pbuf, cell.1 < c.frameBufLen) ∧ f.plen ≤ c.frameBufLen ∧
  f.srun ≤ 2 ∧ f.erun ≤ 2 ∧ (f.st ≠ .hunt → f.srun = 0) ∧ (f.st ≠ .inFrame → f.erun = 0) ∧
  (f.ovf = true → f.st = .pending)

/-- OCNT is in [0, OUT_BUF_LEN] (R53). -/
abbrev FifoInRange (s : State) : Prop := s.obuf.length ≤ s.cfg.outBufLen

/-- The relations between the sequencer's registers: the motors are enabled outside Idle (spec/45_supervisor.md R214),
CALIBRATING only in Calibrating (spec/10_state.md R38), a waypoint is loaded only in Drawing and lies in a queue that is
not empty, a correction or a settle hold belongs to a loaded waypoint, and the two exclude each other (R44 to R46). -/
abbrev SequencerOk (s : State) : Prop :=
  (s.mode ≠ .idle → s.motor.en = true) ∧
  (s.cal.calibrating = true → s.mode = .calibrating) ∧
  (s.draw.loaded = true → s.mode = .drawing ∧ ¬ qEmpty s) ∧
  (s.draw.corr = true → s.draw.loaded = true ∧ s.draw.settle = false) ∧
  (s.draw.settle = true → s.draw.loaded = true ∧ s.draw.penValid = true)

/-- The held output levels agree with the registers behind them (spec/10_state.md R71, spec/40_stepper_axis.md R143). -/
abbrev PortsOk (s : State) : Prop :=
  s.out.dirOut = ⟨s.axes.amp.dir, s.axes.ang.dir⟩ ∧ s.out.stepOut = ⟨false, false⟩ ∧
  s.out.motorEnOut = s.motor.en

/-- The invariant of the block between ticks. -/
structure Inv (s : State) : Prop where
  cfg : s.cfg.Valid
  axes : AxesInRange s
  switches : SwitchesInRange s
  queue : QueueInRange s
  framer : s.framer.InRange s.cfg
  fifo : FifoInRange s
  sequencer : SequencerOk s
  ports : PortsOk s

/-- The output record of a tick keeps the promises of spec/40_stepper_axis.md R142, spec/45_supervisor.md R214 and R216:
at most one pulse for each axis, AMP first, each made by the line sequence of R135, and none while the motors are
disabled. -/
abbrev SafeOutput (s : State) : Prop :=
  (s.out.pulses.map Pulse.axis).Sublist [.amp, .ang] ∧
  (∀ p ∈ s.out.pulses, p.line = pulseLine s.cfg p.dir) ∧
  (s.out.pulses ≠ [] → s.motor.en = true ∧ s.out.motorEnOut = true)

/-- Duty 1 of R281, of the ticks still to come: `now` is non-decreasing modulo 2^32, two consecutive ticks less than
2^31 µs apart. No rule of the block needs it; it is a premise a claim about time may take. -/
def ClockDuty : Word → List TickIn → Prop
  | _, [] => True
  | now, t :: rest => elapsed t.now now < 2 ^ 31 ∧ ClockDuty t.now rest

/-- The transport is silent: it holds no byte and no scheduled tick brings one. -/
def QuietLink (s : State) : Prop := s.rx = [] ∧ ∀ t ∈ s.ticks, t.inBytes = []

/-- That many steps, stopping at the first fault or refusal. -/
def runSteps : Nat → State → Result
  | 0, s => .next s
  | n + 1, s => andThen (step s) (runSteps n)

end Sys2Proof.Machine
end

