-- ==== Sys2Proof/Certificates/Slice0/Obligations.lean ====
section
/-! DEFINITION. The statements for the provers, about the machine of Sys2Proof/Machine. Each docstring names the rule of
spec/ it formalises, or says that it rests on a choice of the model and names the log entry. -/

namespace Sys2Proof.Machine

/-! ### Words the statements share -/

/-- The reply OK, byte for byte (R116). -/
def okReply : List Byte := [0x4F#8, 0x4B#8, 0x0A#8]

/-- The reply FAIL, byte for byte (R116). -/
def failReply : List Byte := [0x46#8, 0x41#8, 0x49#8, 0x4C#8, 0x0A#8]

/-- From s to t exactly these reply bytes were pushed and this record emitted, and no other output changed. -/
def Replied (bytes : List Byte) (tag : Option Word) (cause : Cause) (s t : State) : Prop :=
  t.obuf = s.obuf ++ bytes ∧ t.out = { s.out with diag := s.out.diag ++ [⟨tag, cause⟩] }

/-- No register that no command writes has changed: the axes, the encoder, the switches, the tick's time, and the
model's own fields. -/
def OutsideSame (s t : State) : Prop :=
  t.cfg = s.cfg ∧ t.axes = s.axes ∧ t.enc = s.enc ∧ t.sw = s.sw ∧ t.now = s.now ∧ t.draws = s.draws ∧
  t.rx = s.rx ∧ t.ticks = s.ticks

/-- The framer is as it was, and every byte of PBUF reads as before. -/
def FramerSame (s t : State) : Prop :=
  t.framer = s.framer ∧ ∀ off, t.framer.pbuf.read off = s.framer.pbuf.read off

/-- The registers a command may write are as they were. -/
def CommandRegsSame (s t : State) : Prop :=
  t.cal = s.cal ∧ t.corrEn = s.corrEn ∧ t.mode = s.mode ∧ t.sweep = s.sweep ∧ t.draw = s.draw ∧
  t.motor = s.motor ∧ t.queue = s.queue

/-- The framer after ClearFrame (R247): cleared to HUNT, every byte of PBUF as before. -/
def FrameCleared (s t : State) : Prop :=
  t.framer = { s.framer with plen := 0, ovf := false, erun := 0, srun := 0, st := .hunt } ∧
  ∀ off, t.framer.pbuf.read off = s.framer.pbuf.read off

/-- A command was rejected (R272): FAIL, one record with the cause, and every register as it was. -/
def Rejected (tag : Option Word) (cause : Cause) (s t : State) : Prop :=
  Replied failReply tag cause s t ∧ OutsideSame s t ∧ CommandRegsSame s t

/-- The registers of a mode entry, written out from R193 to R197. -/
def ModeEntered (m : Mode) (s t : State) : Prop :=
  t.mode = m ∧ t.draw = { s.draw with loaded := false, corr := false, settle := false } ∧
  match m with
  | .idle =>
    t.motor = { s.motor with idleT0 := s.now } ∧ t.cal = { s.cal with calibrating := false } ∧ t.sweep = s.sweep
  | .homing =>
    t.motor = { s.motor with en := true } ∧ t.cal = { s.cal with calibrating := false } ∧
    t.sweep = { s.sweep with homed := ⟨false, false⟩ }
  | .calibrating =>
    t.motor = { s.motor with en := true } ∧
    t.cal = ⟨0#32, 0#32, 0#32, 0#32, 0#32, 0#32, false, true⟩ ∧
    t.sweep = { s.sweep with phase := .home, homed := ⟨false, false⟩ }
  | .drawing =>
    t.motor = { s.motor with en := true } ∧ t.cal = { s.cal with calibrating := false } ∧ t.sweep = s.sweep

/-- Feeding bytes to the framer, one after the other. -/
def feedAll (c : Config) (bytes : List Byte) (f : FramerRegs) : FramerRegs :=
  bytes.foldl (fun g b => g.feed c b) f

/-- The live waypoints of the queue, HEAD first (R172, R177). -/
def liveWaypoints (s : State) : List Waypoint :=
  (List.range (qCount s)).map fun k => s.queue.slots.getD ((s.queue.head + k) % s.cfg.queueN) Waypoint.zero

/-- The distance from an axis to its target, in ℤ. -/
def distance (r : AxisRegs) : Nat := (r.tgt.toInt - r.pos.toInt).natAbs

/-- The units of 2^-149 that magnitude bits of a finite binary32 stand for. -/
def magUnits (mag : Nat) : Nat :=
  if mag < 2 ^ 23 then mag else (mag % 2 ^ 23 + 2 ^ 23) * 2 ^ (mag / 2 ^ 23 - 1)

/-- The bits of a binary32 without its sign. -/
def f32Mag (x : Word) : Nat := x.toNat % 2 ^ 31

/-- The registers of an axis after one pulse in direction d at `now` (R136, R137, R140). -/
def stepRegs (now : Word) (d : Bool) (r : AxisRegs) : AxisRegs :=
  { r with pos := BitVec.ofInt 32 (r.pos.toInt + if d then 1 else -1), dir := d, last := now }

/-- The output record after one pulse in direction d on each of the axes that step, AMP first (R135, R143, R216). -/
def pulsedOut (c : Config) (d : Bool) (steps : Axis → Bool) (o : TickOut) : TickOut :=
  { o with
    pulses := o.pulses ++ ([Axis.amp, Axis.ang].filter steps).map fun a =>
      ⟨a, d, [.driveDir d, .hold c.dirSetupUs, .driveStep true, .hold c.stepPulseUs, .driveStep false]⟩
    dirOut := ⟨if steps .amp then d else o.dirOut.amp, if steps .ang then d else o.dirOut.ang⟩
    stepOut := ⟨if steps .amp then false else o.stepOut.amp, if steps .ang then false else o.stepOut.ang⟩ }

/-- In a homing tick the axis is snapped: not homed before, and its zero switch is confirmed (R199). -/
def snapsNow (s : State) (a : Axis) : Bool :=
  !s.sweep.homed.get a && decide ((s.sw.get (match a with | .amp => .az | .ang => .gz)).cnt = s.cfg.debounceK)

/-- In a homing tick the axis steps: not homed before, not snapped now, and ready (R199, R138). -/
def homesNow (s : State) (a : Axis) : Bool :=
  !s.sweep.homed.get a && !snapsNow s a && decide ((s.axes.get a).ivl.toNat ≤ (s.now - (s.axes.get a).last).toNat)

/-- The state after both axes' parts of a homing tick, before HomeDone, register by register: each axis by itself is
snapped to its reference, steps backward, or stays, and the snap of ANG resets the encoder count (R199 to R201). -/
def homingTick (s : State) : State :=
  { s with
    axes :=
      ⟨if snapsNow s .amp then { s.axes.amp with pos := s.cal.minAmp, tgt := s.cal.minAmp }
        else if homesNow s .amp then stepRegs s.now false s.axes.amp else s.axes.amp,
      if snapsNow s .ang then { s.axes.ang with pos := 0#32, tgt := 0#32 }
        else if homesNow s .ang then stepRegs s.now false s.axes.ang else s.axes.ang⟩
    enc := if snapsNow s .ang then 0#32 else s.enc
    sweep := { s.sweep with
      homed := ⟨s.sweep.homed.amp || snapsNow s .amp, s.sweep.homed.ang || snapsNow s .ang⟩ }
    out := pulsedOut s.cfg false (homesNow s) s.out }

/-- In a max-phase tick the axis is derived: not confirmed before, and its max switch is confirmed (R203). -/
def derivesNow (s : State) (a : Axis) : Bool :=
  !s.sweep.maxed.get a && decide ((s.sw.get (match a with | .amp => .ax | .ang => .gx)).cnt = s.cfg.debounceK)

/-- In a max-phase tick the axis steps: not confirmed before, not derived now, and ready (R203, R138). -/
def sweepsNow (s : State) (a : Axis) : Bool :=
  !s.sweep.maxed.get a && !derivesNow s a && decide ((s.axes.get a).ivl.toNat ≤ (s.now - (s.axes.get a).last).toNat)

/-- The state after both axes' parts of a max-phase tick, before CalDone, register by register: each axis by itself is
derived, steps forward and is counted modulo 2^32, or stays (R203 to R205, R43). SPMM, MIN_AMP and the draws are those of
`deriveAmp`, of which AmplitudeDerivation says what they are. -/
def maxTick (s : State) : State :=
  { s with
    axes :=
      ⟨if sweepsNow s .amp then stepRegs s.now true s.axes.amp else s.axes.amp,
      if sweepsNow s .ang then stepRegs s.now true s.axes.ang else s.axes.ang⟩
    cal := { s.cal with
      travel := if derivesNow s .amp then s.sweep.moved.amp else s.cal.travel
      spmm := if derivesNow s .amp then (deriveAmp s).cal.spmm else s.cal.spmm
      minAmp := if derivesNow s .amp then (deriveAmp s).cal.minAmp else s.cal.minAmp
      maxAmp := if derivesNow s .amp then s.sweep.moved.amp + (deriveAmp s).cal.minAmp else s.cal.maxAmp
      maxAng := if derivesNow s .ang then s.sweep.moved.ang else s.cal.maxAng
      maxEnc := if derivesNow s .ang then s.enc else s.cal.maxEnc }
    draws := if derivesNow s .amp then (deriveAmp s).draws else s.draws
    sweep := { s.sweep with
      maxed := ⟨s.sweep.maxed.amp || derivesNow s .amp, s.sweep.maxed.ang || derivesNow s .ang⟩
      moved :=
        ⟨s.sweep.moved.amp + if sweepsNow s .amp then 1#32 else 0#32,
        s.sweep.moved.ang + if sweepsNow s .ang then 1#32 else 0#32⟩ }
    out := pulsedOut s.cfg true (sweepsNow s) s.out }

/-- The encoder-derived position is less than half an encoder unit from a position of ANG, exactly (R183). -/
def HalfUnitNear (s : State) (pos : Word) : Prop :=
  2 * |(encoderToAnglePos s.enc s).toInt - pos.toInt| * |s.cal.maxEnc.toInt| < |s.cal.maxAng.toInt|

/-- A whole scheduled tick t from s (t already taken off the schedule) that begins phase A with a command `run` of the
pending frame: ClearFrame, the bytes the transport presents, phases B to E, and what the transport keeps. -/
def tickAround (t : TickIn) (s : State) (run : State → Result) : Result :=
  andThen
    (andThen (andThen (run (beginTick t s)) fun u => inputLoop (s.rx ++ t.inBytes) (clearFrame u)) (afterInput t))
    fun u => .next (u.setRx ((s.rx ++ t.inBytes).drop u.out.consumed))

end Sys2Proof.Machine

open Sys2Proof Sys2Proof.Machine

/-! ### Decoding, encoding and framing -/

/-- R115, with the formats of R106 to R111 and the tags of R112: a payload that begins with a command's encoding
decodes to that command, whatever bytes follow, and every shorter prefix is malformed, without a tag below 4 bytes and
with the tag otherwise. -/
def Obligations.DecodeInvertsEncode : Prop :=
  ∀ (c : Config) (i : Instr) (extra : List Byte), c.Valid →
    (encode c i).length = i.requiredLength ∧
    decode c (encode c i ++ extra) = .ok i ∧
    ∀ n, n < i.requiredLength →
      decode c ((encode c i).take n) = .error (.short (if n < 4 then none else some (i.tag c)))

/-- R112, R115 read the other way: a payload that decodes to a command begins with that command's encoding, so no bit
of it but the ignored excess is dropped. -/
def Obligations.DecodedPayloadIsEncoding : Prop :=
  ∀ (c : Config) (p : List Byte) (i : Instr), decode c p = .ok i →
    i.requiredLength ≤ p.length ∧ encode c i = p.take i.requiredLength

/-- R113: a payload of 4 bytes or more is unrecognized exactly when its little-endian tag is none of the five; there
is no reserved tag. -/
def Obligations.UnrecognizedTagsExactly : Prop :=
  ∀ (c : Config) (p : List Byte) (tag : Word),
    decode c p = .error (.unknownTag tag) ↔
      (∃ rest, p = tag.extractLsb' 0 8 :: tag.extractLsb' 8 8 :: tag.extractLsb' 16 8 :: tag.extractLsb' 24 8 :: rest) ∧
      tag ∉ [c.tagGetStatus, c.tagSetMode, c.tagCalibrate, c.tagSetAngleCorr, c.tagAddPosition]

/-- Payloads written out from spec/95_test_vectors.md (V-AP-1, V-CA-1, V-FR-3, V-ER-4) decode to what they stand for, and
words of the tag map of R112 do as table words. A table word takes the tags of TC (log 1) and stands for its 4 bytes padded
with zeros to 28 (log 4), so tag 1 alone is SETMODE 0 there, while the bare 4-byte payload is short. -/
def Obligations.KnownWordsDecode : Prop :=
  decodeTableWord 32 0x00000000 = some .getStatus ∧
  decodeTableWord 32 0x00000001 = some (.setMode 0#32) ∧
  decodeTableWord 32 0x00000003 = some (.setAngleCorr 0#32) ∧
  decodeTableWord 32 0x00000005 = none ∧
  decode Config.tc [0x04#8, 0x00#8, 0x00#8, 0x00#8, 0x64#8, 0x00#8, 0x00#8, 0x00#8, 0xC8#8, 0x00#8, 0x00#8, 0x00#8,
    0x5A#8, 0x00#8, 0x00#8, 0x00#8, 0xF4#8, 0x01#8, 0x00#8, 0x00#8, 0xF4#8, 0x01#8, 0x00#8, 0x00#8,
    0x1B#8, 0x01#8, 0x00#8, 0x00#8] = .ok (.addPos 100#32 200#32 90#32 500#32 500#32 283#32) ∧
  decode Config.tc [0x02#8, 0x00#8, 0x00#8, 0x00#8, 0xE8#8, 0x03#8, 0x00#8, 0x00#8, 0x00#8, 0x00#8, 0x00#8, 0x40#8,
    0x14#8, 0x00#8, 0x00#8, 0x00#8, 0xFC#8, 0x03#8, 0x00#8, 0x00#8, 0x40#8, 0x06#8, 0x00#8, 0x00#8,
    0x90#8, 0x01#8, 0x00#8, 0x00#8] = .ok (.calibrate 1000#32 0x40000000#32 20#32 1020#32 1600#32 400#32) ∧
  decode Config.tc [0x01#8, 0x00#8, 0x00#8, 0x00#8] = .error (.short (some 1#32)) ∧
  decode Config.tc [0x3C#8, 0x00#8, 0x00#8, 0x00#8] = .error (.unknownTag 0x3C#32)

/-- R233, after inter-frame bytes that meet R114 (d), (e): a payload that meets R114 (a) to (c) is reconstructed byte
for byte. -/
def Obligations.FramerDeliversPayload : Prop :=
  ∀ (c : Config) (f : FramerRegs) (gap p : List Byte), c.Valid → f.pbuf.wf = true →
    f.st = .hunt → f.srun = 0 → CleanGap c gap → Deliverable c p →
    (feedAll c (gap ++ frame c p) f).st = .pending ∧
    (feedAll c (gap ++ frame c p) f).plen = p.length ∧
    (feedAll c (gap ++ frame c p) f).payload = p ∧
    (feedAll c (gap ++ frame c p) f).ovf = false

/-- R234, with R232: FRAME_BUF_LEN + 1 payload bytes that meet R114 (a), the last of them not E, end their frame by
overflow at that last byte, which is not stored. -/
def Obligations.OverlongFrameOverflows : Prop :=
  ∀ (c : Config) (f : FramerRegs) (p : List Byte), c.Valid →
    f.st = .hunt → f.srun = 0 → hasTripleRun c.frameEnd p = false → p.length = c.frameBufLen + 1 →
    p.getLast? ≠ some c.frameEnd →
    (feedAll c (List.replicate 3 c.frameStart ++ p) f).st = .pending ∧
    (feedAll c (List.replicate 3 c.frameStart ++ p) f).ovf = true ∧
    (feedAll c (List.replicate 3 c.frameStart ++ p) f).plen = c.frameBufLen

/-- R236, R237 with R119 and R233: the frame of a well-formed command, sent on the link while the framer hunts, is
consumed whole and runs that command: the input phase is the command's meaning, then ClearFrame. Only the framer and
the consumed count differ when the meaning runs. -/
def Obligations.CommandArrivesByLink : Prop :=
  ∀ (s : State) (i : Instr), s.cfg.Valid → s.framer.InRange s.cfg → s.framer.st = .hunt → s.framer.srun = 0 →
    i.WellFormed s.cfg → replyRoom s →
    ∃ u : State,
      u = { s with
        framer := u.framer
        out := { s.out with consumed := s.out.consumed + (encodeFrame s.cfg i).length } } ∧
      u.framer.st = .pending ∧ u.framer.ovf = false ∧ u.framer.payload = encode s.cfg i ∧
      inputPhase (encodeFrame s.cfg i) s = andThen (exec i u) fun v => .next (clearFrame v)

/-- R236: bytes may be presented in pieces. Where all the bytes before a point are taken and no frame is held there,
the rest is taken from the state they leave. -/
def Obligations.InputSplitsAnywhere : Prop :=
  ∀ (xs ys : List Byte) (s u : State), inputLoop xs s = .next u → u.framer.st ≠ .pending →
    inputLoop (xs ++ ys) s = inputLoop ys u

/-! ### Reset and the invariant -/

/-- R290: the whole table, under any configuration R8 allows, and the output ports before the first tick. -/
def Obligations.ResetValues : Prop :=
  ∀ c : Config, c.Valid →
    (∀ a : Axis,
      ((State.resetWith c).axes.get a).pos = 0#32 ∧ ((State.resetWith c).axes.get a).tgt = 0#32 ∧
      (((State.resetWith c).axes.get a).spd.toNat : Int) = min (max c.speedReset.toInt 1) c.maxSpeed ∧
      ((State.resetWith c).axes.get a).ivl.toNat = 1000000 / ((State.resetWith c).axes.get a).spd.toNat ∧
      ((State.resetWith c).axes.get a).dir = true ∧ ((State.resetWith c).axes.get a).last = 0#32 ∧
      (State.resetWith c).sweep.homed.get a = false ∧ (State.resetWith c).sweep.maxed.get a = false ∧
      (State.resetWith c).sweep.moved.get a = 0#32 ∧
      (State.resetWith c).out.stepOut.get a = false ∧ (State.resetWith c).out.dirOut.get a = true) ∧
    (State.resetWith c).cal = ⟨0#32, 0#32, 0#32, 0#32, 0#32, 0#32, false, false⟩ ∧
    (State.resetWith c).corrEn = false ∧ (State.resetWith c).mode = .idle ∧
    (State.resetWith c).sweep.phase = .home ∧
    (State.resetWith c).draw = ⟨false, false, false, 0#32, 0#32, false⟩ ∧
    (State.resetWith c).motor = ⟨false, 0#32⟩ ∧ (State.resetWith c).enc = 0#32 ∧
    (∀ k : Switch, (State.resetWith c).sw.get k = ⟨0, false⟩) ∧
    (State.resetWith c).queue.head = 0 ∧ (State.resetWith c).queue.tail = 0 ∧
    (State.resetWith c).framer.st = .hunt ∧ (State.resetWith c).framer.srun = 0 ∧
    (State.resetWith c).framer.erun = 0 ∧ (State.resetWith c).framer.plen = 0 ∧
    (State.resetWith c).framer.ovf = false ∧ (State.resetWith c).obuf = [] ∧
    (State.resetWith c).out.motorEnOut = false ∧ (State.resetWith c).out.penCmd = none ∧
    (State.resetWith c).out.outByte = none

/-- The invariant holds after reset, whatever the transport then holds and whatever ticks are scheduled. -/
def Obligations.ResetSatisfiesInv : Prop :=
  ∀ (c : Config) (rx : List Byte) (ticks : List TickIn), c.Valid →
    Inv { State.resetWith c with rx := rx, ticks := ticks }

/-- Every step keeps the invariant: the ranges of R33, R34, R50 to R53, the canonical PBUF, and the relations of R38,
R44 to R46, R143 and R214. -/
def Obligations.StepKeepsInv : Prop :=
  ∀ s t : State, Inv s → step s = .next t → Inv t

/-- R285, R191: from a state of the invariant every step completes; no input and no register value stops the block. -/
def Obligations.StepNeverStops : Prop :=
  ∀ s : State, Inv s → ∃ t, step s = .next t

/-- R142, R214, R216, R135: a tick emits at most one pulse for each axis, AMP first, each with the line sequence of
R135, and none while the motors are disabled. -/
def Obligations.TickOutputIsSafe : Prop :=
  ∀ (k : TickIn) (s t : State), Inv s → tick k s = .next t → SafeOutput t

/-- The model's choice (log 1): the configuration record, which R8 makes a model's argument, is a field of State that no
step changes. -/
def Obligations.ConfigurationIsFixed : Prop :=
  ∀ s t : State, step s = .next t → t.cfg = s.cfg

/-! ### The step and the tick -/

/-- A step runs the decoded command: where the frame pending in PBUF decodes to i and OBUF has room for a reply, the
next tick is i's meaning on the state at the tick's start, then ClearFrame, the bytes the transport presents, phases B
to E, and the transport's keeping of what was not consumed (R236, R237, R190, R72). -/
def Obligations.StepRunsPendingCommand : Prop :=
  ∀ (s : State) (t : TickIn) (rest : List TickIn) (i : Instr), s.ticks = t :: rest →
    s.framer.st = .pending → s.framer.ovf = false → replyRoom s → decode s.cfg s.framer.payload = .ok i →
    step s = tickAround t (s.setTicks rest) (exec i)

/-- The model's choice (log 2), from R291 and R281 duty 8: with no tick scheduled the block does nothing. -/
def Obligations.NoTickNoChange : Prop :=
  ∀ s : State, s.ticks = [] → step s = .next s

/-- R72, R236, with the transport's duty of R72 built into the step (the model's choice, log 3): a tick consumes a prefix
of what the transport presents (the bytes it held, then the new ones), and exactly the rest stays at the head of the stream.
The prefix is what the input phase takes: `consumed` is the least number of bytes on which the input phase gives the state
it gives on all of them, and it is short of all only where a frame is held for room. -/
def Obligations.TransportKeepsUnconsumed : Prop :=
  ∀ (s u : State) (t : TickIn) (rest : List TickIn), s.ticks = t :: rest → step s = .next u →
    u.ticks = rest ∧ u.now = t.now ∧ u.out.consumed ≤ (s.rx ++ t.inBytes).length ∧
    (s.rx ++ t.inBytes).take u.out.consumed ++ u.rx = s.rx ++ t.inBytes ∧
    ∃ v, inputPhase (s.rx ++ t.inBytes) (beginTick t (s.setTicks rest)) = .next v ∧
      inputPhase ((s.rx ++ t.inBytes).take u.out.consumed) (beginTick t (s.setTicks rest)) = .next v ∧
      (∀ n, n < u.out.consumed →
        inputPhase ((s.rx ++ t.inBytes).take n) (beginTick t (s.setTicks rest)) ≠ .next v) ∧
      (u.out.consumed < (s.rx ++ t.inBytes).length → v.framer.st = .pending ∧ ¬ replyRoom v)

/-- R190, R160, R152, R154: phase C adds the encoder delta modulo 2^32 and polls every switch once; nothing else
changes. -/
def Obligations.SamplingPhase : Prop :=
  ∀ (k : TickIn) (s : State),
    (sample k s).enc = BitVec.ofInt 32 (s.enc.toInt + k.encDelta.toInt) ∧
    (∀ sw : Switch,
      ((sample k s).sw.get sw).lvl = k.swRaw.get sw ∧
      ((sample k s).sw.get sw).cnt =
        if k.swRaw.get sw = s.cfg.swActiveLevel then min ((s.sw.get sw).cnt + 1) s.cfg.debounceK else 0) ∧
    sample k s = { s with enc := (sample k s).enc, sw := (sample k s).sw }

/-- R248, R71: a tick starts a fresh output record, with no pulse, no pen command, no byte, nothing consumed and no
diagnostic record, holding only the three levels; of OBUF as phase A leaves it, at most one byte leaves, the first pushed,
and only when the transport accepts one, and out_byte is none where nothing leaves; the drain changes nothing else. -/
def Obligations.OutputDrainsInOrder : Prop :=
  (∀ (ready : Bool) (s : State),
    (∀ b rest, s.obuf = b :: rest → ready = true →
      outputDrain ready s = { s with obuf := rest, out := { s.out with outByte := some b } }) ∧
    (s.obuf = [] ∨ ready = false → outputDrain ready s = s)) ∧
  (∀ (k : TickIn) (s : State),
    beginTick k s =
      { s with
        now := k.now
        out := ⟨[], s.out.dirOut, s.out.stepOut, s.out.motorEnOut, none, none, 0, []⟩ }) ∧
  (∀ (k : TickIn) (s t : State), tick k s = .next t →
    ∃ u, inputPhase k.inBytes (beginTick k s) = .next u ∧
      t.out.outByte = (if k.outReady then u.obuf.head? else none) ∧
      t.obuf = (if k.outReady then u.obuf.tail else u.obuf) ∧
      t.out.consumed = u.out.consumed ∧ t.out.diag = u.out.diag ∧ u.out.pulses = [] ∧ u.out.penCmd = none)

/-- R214: the dwell clears MOTOR_EN exactly in Idle with the motors enabled and IDLE_DISABLE_US elapsed, and
MOTOR_EN_OUT is MOTOR_EN after it. -/
def Obligations.MotorEnableDwell : Prop :=
  ∀ s : State,
    (motorEnableUpdate s).motor.en =
      (s.motor.en && !decide (s.mode = .idle ∧ s.cfg.idleDisableUs ≤ (s.now - s.motor.idleT0).toNat)) ∧
    (motorEnableUpdate s).out.motorEnOut = (motorEnableUpdate s).motor.en ∧
    motorEnableUpdate s =
      { s with motor := { s.motor with en := (motorEnableUpdate s).motor.en }
               out := { s.out with motorEnOut := (motorEnableUpdate s).motor.en } }

/-! ### The commands -/

/-- R117 with R116: GETSTATUS pushes the 23 words of the status dump, little-endian, then OK, and changes nothing
else. -/
def Obligations.GetStatusDumps : Prop :=
  ∀ s : State, replyRoom s →
    ∃ t, exec .getStatus s = .next t ∧
      Replied
        (([match s.mode with | .idle => 0#32 | .homing => 1#32 | .calibrating => 2#32 | .drawing => 3#32,
          if s.cal.calibrated then 1#32 else 0#32, if s.cal.calibrating then 1#32 else 0#32,
          s.axes.amp.pos, s.axes.amp.tgt, s.axes.amp.spd, s.axes.ang.pos, s.axes.ang.tgt, s.axes.ang.spd,
          s.cal.travel, s.cal.spmm, s.cal.minAmp, s.cal.maxAmp, s.cal.maxAng, s.enc, s.cal.maxEnc,
          BitVec.ofNat 32 s.queue.tail, BitVec.ofNat 32 s.queue.head,
          if s.sw.az.lvl then 1#32 else 0#32, if s.sw.ax.lvl then 1#32 else 0#32,
          if s.sw.gz.lvl then 1#32 else 0#32, if s.sw.gx.lvl then 1#32 else 0#32,
          if s.corrEn then 1#32 else 0#32].flatMap fun w =>
            [w.extractLsb' 0 8, w.extractLsb' 8 8, w.extractLsb' 16 8, w.extractLsb' 24 8]) ++ okReply)
        (some s.cfg.tagGetStatus) .none s t ∧
      t.obuf.length = s.obuf.length + 95 ∧
      OutsideSame s t ∧ FramerSame s t ∧ CommandRegsSame s t

/-- R240 with R110 and R193 to R197: SETMODE with the code of a mode enters that mode in full, whatever the current mode
is, answers OK, and leaves every other register, the queue included (R178). -/
def Obligations.SetModeEnters : Prop :=
  ∀ (s : State) (m : Mode), replyRoom s →
    ∃ t, exec (.setMode (match m with | .idle => 0#32 | .homing => 1#32 | .calibrating => 2#32 | .drawing => 3#32)) s
        = .next t ∧
      ModeEntered m s t ∧ t.corrEn = s.corrEn ∧ t.queue = s.queue ∧
      Replied okReply (some s.cfg.tagSetMode) .none s t ∧ OutsideSame s t ∧ FramerSame s t

/-- R240 with R110, R271: a code that is no mode is rejected with PE_BAD_MODE and nothing changes. -/
def Obligations.SetModeRejectsBadCode : Prop :=
  ∀ (s : State) (code : Word), replyRoom s → code ∉ [0#32, 1#32, 2#32, 3#32] →
    ∃ t, exec (.setMode code) s = .next t ∧ Rejected (some s.cfg.tagSetMode) .badMode s t ∧ FramerSame s t

/-- R241: CALIBRATE stores its six fields as given, sets CALIBRATED, clears CALIBRATING, answers OK and changes nothing
else, MODE included. -/
def Obligations.CalibrateStoresVerbatim : Prop :=
  ∀ (s : State) (dist spmm minAmp maxAmp maxAng maxEnc : Word), replyRoom s →
    ∃ t, exec (.calibrate dist spmm minAmp maxAmp maxAng maxEnc) s = .next t ∧
      t.cal = ⟨dist, spmm, minAmp, maxAmp, maxAng, maxEnc, true, false⟩ ∧
      t.corrEn = s.corrEn ∧ t.mode = s.mode ∧ t.sweep = s.sweep ∧ t.draw = s.draw ∧ t.motor = s.motor ∧
      t.queue = s.queue ∧
      Replied okReply (some s.cfg.tagCalibrate) .none s t ∧ OutsideSame s t ∧ FramerSame s t

/-- R242: SETANGLECORR sets CORR_EN to 1 for every non-zero value and to 0 for zero, answers OK and changes nothing
else. -/
def Obligations.SetAngleCorrSets : Prop :=
  ∀ (s : State) (enabled : Word), replyRoom s →
    ∃ t, exec (.setAngleCorr enabled) s = .next t ∧
      (t.corrEn = true ↔ enabled.toInt ≠ 0) ∧
      t.cal = s.cal ∧ t.mode = s.mode ∧ t.sweep = s.sweep ∧ t.draw = s.draw ∧ t.motor = s.motor ∧
      t.queue = s.queue ∧
      Replied okReply (some s.cfg.tagSetAngleCorr) .none s t ∧ OutsideSame s t ∧ FramerSame s t

/-- R243, R244, R173: ADDPOS whose checksum matches, on a queue that is not full, stores the waypoint unclamped in the
slot at TAIL and no other, advances TAIL, answers OK and changes nothing else. -/
def Obligations.AddPosEnqueues : Prop :=
  ∀ (s : State) (amp ang pen vamp vang chk : Word), replyRoom s → QueueInRange s →
    amp.toInt.tmod 123 + ang.toInt.tmod 123 + pen.toInt.tmod 123 + vamp.toInt.tmod 123 + vang.toInt.tmod 123
      = chk.toInt →
    (s.queue.tail + 1) % s.cfg.queueN ≠ s.queue.head →
    ∃ t, exec (.addPos amp ang pen vamp vang chk) s = .next t ∧
      t.queue.slots[s.queue.tail]? = some ⟨amp, ang, pen, vamp, vang⟩ ∧
      (∀ i, i ≠ s.queue.tail → t.queue.slots[i]? = s.queue.slots[i]?) ∧
      t.queue.tail = (s.queue.tail + 1) % s.cfg.queueN ∧ t.queue.head = s.queue.head ∧
      t.cal = s.cal ∧ t.corrEn = s.corrEn ∧ t.mode = s.mode ∧ t.sweep = s.sweep ∧ t.draw = s.draw ∧
      t.motor = s.motor ∧
      Replied okReply (some s.cfg.tagAddPosition) .none s t ∧ OutsideSame s t ∧ FramerSame s t

/-- R273 with R243, R271: a checksum that does not match is rejected with PE_CHECKSUM, also on a full queue; one that
matches on a full queue is rejected with RE_QUEUE_FULL; nothing changes in either case. -/
def Obligations.AddPosRejections : Prop :=
  ∀ (s : State) (amp ang pen vamp vang chk : Word), replyRoom s →
    (amp.toInt.tmod 123 + ang.toInt.tmod 123 + pen.toInt.tmod 123 + vamp.toInt.tmod 123 + vang.toInt.tmod 123
        ≠ chk.toInt →
      ∃ t, exec (.addPos amp ang pen vamp vang chk) s = .next t ∧
        Rejected (some s.cfg.tagAddPosition) .checksum s t ∧ FramerSame s t) ∧
    (amp.toInt.tmod 123 + ang.toInt.tmod 123 + pen.toInt.tmod 123 + vamp.toInt.tmod 123 + vang.toInt.tmod 123
        = chk.toInt → (s.queue.tail + 1) % s.cfg.queueN = s.queue.head →
      ∃ t, exec (.addPos amp ang pen vamp vang chk) s = .next t ∧
        Rejected (some s.cfg.tagAddPosition) .queueFull s t ∧ FramerSame s t)

/-- R237, R245, R246, R247, R271 to R273: what dispatching a frame that is no command does. An overflowed frame is
PE_OVERFLOW whatever it holds; a payload below 4 bytes, or below its tag's required length, is PE_SHORT; an unknown tag
is answered OK with a diagnostic. Every register but the output and the framer keeps its value, and the framer is
cleared. -/
def Obligations.DispatchOfNoCommand : Prop :=
  ∀ s : State, replyRoom s → s.cfg.Valid →
    (s.framer.ovf = true →
      ∃ t, dispatchFrame s = .next t ∧ Rejected none .overflow s t ∧ FrameCleared s t) ∧
    (s.framer.ovf = false → s.framer.payload.length < 4 →
      ∃ t, dispatchFrame s = .next t ∧ Rejected none .short s t ∧ FrameCleared s t) ∧
    (∀ (i : Instr) (n : Nat), s.framer.ovf = false → 4 ≤ n → n < i.requiredLength →
      s.framer.payload = (encode s.cfg i).take n →
      ∃ t, dispatchFrame s = .next t ∧ Rejected (some (i.tag s.cfg)) .short s t ∧ FrameCleared s t) ∧
    (∀ (tag : Word) (rest : List Byte), s.framer.ovf = false →
      tag ∉ [s.cfg.tagGetStatus, s.cfg.tagSetMode, s.cfg.tagCalibrate, s.cfg.tagSetAngleCorr, s.cfg.tagAddPosition] →
      s.framer.payload = le32 tag ++ rest →
      ∃ t, dispatchFrame s = .next t ∧ Replied okReply (some tag) .unknownTag s t ∧ OutsideSame s t ∧
        CommandRegsSame s t ∧ FrameCleared s t)

/-- R237, R11, R271: every dispatch pushes exactly one reply (FAIL for the causes 1 to 5, OK or a dump and OK
otherwise), of at most 95 bytes, emits exactly one record, and clears the frame. -/
def Obligations.DispatchAnswersOnce : Prop :=
  ∀ s t : State, dispatchFrame s = .next t →
    ∃ (bytes : List Byte) (d : Diag),
      t.obuf = s.obuf ++ bytes ∧ t.out = { s.out with diag := s.out.diag ++ [d] } ∧
      bytes.length ≤ 95 ∧ FrameCleared s t ∧
      (1 ≤ d.cause.code ∧ d.cause.code ≤ 5 → bytes = failReply) ∧
      (d.cause.code = 0 ∨ d.cause.code = 6 → bytes = okReply ∨ bytes = statusDump s ++ okReply)

/-- R244: the checksum lies in [-610, 610]. -/
def Obligations.ChecksumRange : Prop :=
  ∀ amp ang pen vamp vang : Word,
    -610 ≤ checksum amp ang pen vamp vang ∧ checksum amp ang pen vamp vang ≤ 610

/-- R315: a field changed by a multiple of 123 with its sign kept leaves the checksum as it was, and exchanging two
fields does too. -/
def Obligations.ChecksumMissesSuchErrors : Prop :=
  ∀ (f g ang pen vamp vang : Word),
    ((0 ≤ f.toInt ∧ 0 ≤ g.toInt ∨ f.toInt ≤ 0 ∧ g.toInt ≤ 0) → (∃ k : Int, g.toInt = f.toInt + 123 * k) →
      checksum f ang pen vamp vang = checksum g ang pen vamp vang) ∧
    checksum f g pen vamp vang = checksum g f pen vamp vang ∧
    checksum f ang g vamp vang = checksum g ang f vamp vang ∧
    checksum f ang pen g vang = checksum g ang pen f vang ∧
    checksum f ang pen vamp g = checksum g ang pen vamp f

/-! ### The stepper axes -/

/-- R132 with R131: setSpeed clamps any int32 to [1, MAX_SPEED], IVL is 1000000 div SPD, and nothing else changes, LAST
included (R141). -/
def Obligations.SetSpeedClamps : Prop :=
  ∀ (s : State) (a : Axis) (v : Word), s.cfg.Valid →
    ((((setSpeed a v s).axes.get a).spd.toNat : Int) =
      if v.toInt < 1 then 1 else if (s.cfg.maxSpeed : Int) < v.toInt then (s.cfg.maxSpeed : Int) else v.toInt) ∧
    ((setSpeed a v s).axes.get a).ivl.toNat = 1000000 / ((setSpeed a v s).axes.get a).spd.toNat ∧
    (setSpeed a v s).axes.get a =
      { s.axes.get a with
        spd := ((setSpeed a v s).axes.get a).spd, ivl := ((setSpeed a v s).axes.get a).ivl } ∧
    (∀ b, b ≠ a → (setSpeed a v s).axes.get b = s.axes.get b) ∧
    setSpeed a v s = { s with axes := (setSpeed a v s).axes }

/-- R138: an axis whose last pulse was d microseconds ago, d below 2^32, is ready exactly when IVL ≤ d, also across the
wrap of the time base. -/
def Obligations.PacingAcrossWrap : Prop :=
  ∀ (r : AxisRegs) (d : Nat), d < 2 ^ 32 →
    (r.ready (BitVec.ofNat 32 (r.last.toNat + d)) ↔ r.ivl.toNat ≤ d)

/-- R136, R139, R140: stepTowardTarget emits nothing at the target or before the interval is over; otherwise one pulse
toward the target by the signed comparison, which brings POS exactly one step nearer: POS, DIR and LAST change, with the
pulse and the two lines it drives, and nothing else. -/
def Obligations.StepTowardTargetNears : Prop :=
  ∀ (s : State) (a : Axis),
    ((s.axes.get a).pos = (s.axes.get a).tgt ∨ (s.now - (s.axes.get a).last).toNat < (s.axes.get a).ivl.toNat →
      stepTowardTarget a s = s) ∧
    ((s.axes.get a).pos ≠ (s.axes.get a).tgt → (s.axes.get a).ivl.toNat ≤ (s.now - (s.axes.get a).last).toNat →
      distance ((stepTowardTarget a s).axes.get a) + 1 = distance (s.axes.get a) ∧
      (stepTowardTarget a s).axes.get a =
        stepRegs s.now (decide ((s.axes.get a).pos.toInt < (s.axes.get a).tgt.toInt)) (s.axes.get a) ∧
      (stepTowardTarget a s).out =
        pulsedOut s.cfg (decide ((s.axes.get a).pos.toInt < (s.axes.get a).tgt.toInt)) (fun b => decide (b = a)) s.out ∧
      (∀ b, b ≠ a → (stepTowardTarget a s).axes.get b = s.axes.get b) ∧
      stepTowardTarget a s = { s with axes := (stepTowardTarget a s).axes, out := (stepTowardTarget a s).out })

/-- R137, R140: singleStepAtSpeed emits one pulse in the given direction exactly when the axis is ready, POS moving by
one modulo 2^32 and TGT unread and unwritten; otherwise it changes nothing. -/
def Obligations.SingleStepMoves : Prop :=
  ∀ (s : State) (a : Axis) (forward : Bool),
    ((s.now - (s.axes.get a).last).toNat < (s.axes.get a).ivl.toNat → singleStepAtSpeed a forward s = s) ∧
    ((s.axes.get a).ivl.toNat ≤ (s.now - (s.axes.get a).last).toNat →
      (singleStepAtSpeed a forward s).axes.get a =
        { s.axes.get a with
          pos := BitVec.ofInt 32 ((s.axes.get a).pos.toInt + if forward then 1 else -1)
          dir := forward, last := s.now } ∧
      (singleStepAtSpeed a forward s).out =
        { s.out with
          pulses := s.out.pulses ++ [⟨a, forward,
            [.driveDir forward, .hold s.cfg.dirSetupUs, .driveStep true, .hold s.cfg.stepPulseUs, .driveStep false]⟩]
          dirOut := s.out.dirOut.set a forward
          stepOut := s.out.stepOut.set a false } ∧
      (∀ b, b ≠ a → (singleStepAtSpeed a forward s).axes.get b = s.axes.get b) ∧
      singleStepAtSpeed a forward s =
        { s with axes := (singleStepAtSpeed a forward s).axes, out := (singleStepAtSpeed a forward s).out })

/-! ### Debounce, mapping, queue -/

/-- R153: from a cleared counter, deb_pressed holds exactly when the last DEBOUNCE_K polls all sampled pressed. -/
def Obligations.DebounceNeedsKPolls : Prop :=
  ∀ (c : Config) (r : SwitchRegs) (polls : List Bool), 1 ≤ c.debounceK → r.cnt = 0 →
    ((polls.foldl (fun q raw => q.poll c raw) r).cnt = c.debounceK ↔
      c.debounceK ≤ polls.length ∧ ∀ raw ∈ polls.drop (polls.length - c.debounceK), raw = c.swActiveLevel)

/-- R162, R164, R165: for every argument the mappings are 0 for an empty input range and otherwise the exact quotient in
ℤ, truncated toward zero and wrapped to int32. R166: the round trip on a calibrated range never exceeds its argument, is
exact where MAX_ANG is a multiple of MAX_ENC, and loses at most one where MAX_ANG ≥ MAX_ENC; both mappings are monotonic
non-decreasing there; the rule's two inexact examples; and, where MAX_ANG < MAX_ENC, a count that loses three. -/
def Obligations.MapperRoundTrip : Prop :=
  (∀ x inLo inHi outLo outHi : Word,
    linearMap x inLo inHi outLo outHi =
      if inHi = inLo then 0#32
      else BitVec.ofInt 32
        (((x.toInt - inLo.toInt) * (outHi.toInt - outLo.toInt)).tdiv (inHi.toInt - inLo.toInt) + outLo.toInt)) ∧
  (∀ (s : State) (x : Word),
    encoderToAnglePos x s =
      (if s.cal.maxEnc = 0#32 then 0#32
        else BitVec.ofInt 32 ((x.toInt * s.cal.maxAng.toInt).tdiv s.cal.maxEnc.toInt)) ∧
    anglePosToEncoder x s =
      (if s.cal.maxAng = 0#32 then 0#32
        else BitVec.ofInt 32 ((x.toInt * s.cal.maxEnc.toInt).tdiv s.cal.maxAng.toInt))) ∧
  (∀ (s : State) (c : Word), 0 < s.cal.maxEnc.toInt → 0 < s.cal.maxAng.toInt →
    0 ≤ c.toInt → c.toInt ≤ s.cal.maxEnc.toInt →
    (anglePosToEncoder (encoderToAnglePos c s) s).toInt ≤ c.toInt ∧
    (s.cal.maxEnc.toInt ∣ s.cal.maxAng.toInt → anglePosToEncoder (encoderToAnglePos c s) s = c) ∧
    (s.cal.maxEnc.toInt ≤ s.cal.maxAng.toInt →
      anglePosToEncoder (encoderToAnglePos c s) s = c ∨
      (anglePosToEncoder (encoderToAnglePos c s) s).toInt = c.toInt - 1)) ∧
  (∀ (s : State) (x y : Word), 0 < s.cal.maxEnc.toInt → 0 < s.cal.maxAng.toInt →
    0 ≤ x.toInt → x.toInt ≤ y.toInt →
    (y.toInt ≤ s.cal.maxEnc.toInt → (encoderToAnglePos x s).toInt ≤ (encoderToAnglePos y s).toInt) ∧
    (y.toInt ≤ s.cal.maxAng.toInt → (anglePosToEncoder x s).toInt ≤ (anglePosToEncoder y s).toInt)) ∧
  (∀ s : State, s.cal.maxEnc = 3#32 → s.cal.maxAng = 4#32 ∨ s.cal.maxAng = 10#32 →
    anglePosToEncoder (encoderToAnglePos 1#32 s) s = 0#32) ∧
  (∀ s : State, s.cal.maxEnc = 10#32 → s.cal.maxAng = 3#32 → anglePosToEncoder (encoderToAnglePos 3#32 s) s = 0#32)

/-- R171, R172: the queue is empty exactly when HEAD = TAIL and full exactly when (TAIL + 1) mod QUEUE_N = HEAD; the
occupancy is (TAIL - HEAD) mod QUEUE_N, never exceeds QUEUE_N - 1, is 0 exactly when the queue is empty, and QUEUE_N - 1
exactly when it is full. -/
def Obligations.QueueOccupancy : Prop :=
  ∀ s : State, QueueInRange s → 2 ≤ s.cfg.queueN →
    (qEmpty s ↔ s.queue.head = s.queue.tail) ∧ (qFull s ↔ (s.queue.tail + 1) % s.cfg.queueN = s.queue.head) ∧
    (qCount s : Int) = ((s.queue.tail : Int) - s.queue.head) % s.cfg.queueN ∧
    qCount s ≤ s.cfg.queueN - 1 ∧ (qCount s = 0 ↔ qEmpty s) ∧ (qCount s = s.cfg.queueN - 1 ↔ qFull s)

/-- R173 to R177: the circular buffer behaves as a list of waypoints, first in first out: an enqueue appends to a queue
that is not full and changes nothing on a full one, peekNext is the first waypoint, and a dequeue drops it. -/
def Obligations.QueueIsFifo : Prop :=
  ∀ s : State, QueueInRange s → 2 ≤ s.cfg.queueN →
    (∀ w, ¬ qFull s → ∃ t, tryEnqueue w s = .next t ∧ QueueInRange t ∧ liveWaypoints t = liveWaypoints s ++ [w]) ∧
    (∀ w, qFull s → tryEnqueue w s = .next s) ∧
    peekNext s = (liveWaypoints s).head? ∧
    QueueInRange (tryDequeue s) ∧ liveWaypoints (tryDequeue s) = (liveWaypoints s).tail

/-- R177: no step writes a live slot. -/
def Obligations.LiveSlotsAreImmutable : Prop :=
  ∀ s t : State, Inv s → step s = .next t → ∀ k, k < qCount s →
    t.queue.slots[(s.queue.head + k) % s.cfg.queueN]? = s.queue.slots[(s.queue.head + k) % s.cfg.queueN]?

/-! ### The angle corrector -/

/-- R182 with R181, R183: the arrival check completes when the corrector is not active or when the encoder-derived
position is less than half an encoder unit from POS[ANG]; otherwise it sets CORR and nothing else. -/
def Obligations.ArrivalCheckGates : Prop :=
  ∀ s : State,
    (s.corrEn = false ∨ s.cal.maxEnc = 0#32 ∨ s.cal.maxAng = 0#32 → arrivalCheck s = (s, .complete)) ∧
    (s.corrEn = true → s.cal.maxEnc ≠ 0#32 → s.cal.maxAng ≠ 0#32 →
      (2 * |(encoderToAnglePos s.enc s).toInt - s.axes.ang.pos.toInt| * |s.cal.maxEnc.toInt| < |s.cal.maxAng.toInt| →
        arrivalCheck s = (s, .complete)) ∧
      (|s.cal.maxAng.toInt| ≤ 2 * |(encoderToAnglePos s.enc s).toInt - s.axes.ang.pos.toInt| * |s.cal.maxEnc.toInt| →
        arrivalCheck s = ({ s with draw := { s.draw with corr := true } }, .goOn)))

/-- R184, R185, R186: a correction step abandons the phase without a re-anchor when the corrector is not active;
converges, re-anchoring POS[ANG] and nothing else but CORR, when ENC is the target count; and otherwise is one paced
single step of ANG toward it. R207, R212: a Drawing mode step with LOADED = 1, CORR = 1 and no hold is that step and, where
it abandons or converges, the completion: HEAD advances and LOADED clears. -/
def Obligations.CorrectionStepCases : Prop :=
  (∀ s : State,
    (¬ corrActive s → correctionStep s = ({ s with draw := { s.draw with corr := false } }, .complete)) ∧
    (corrActive s → s.enc = anglePosToEncoder s.axes.ang.tgt s →
      correctionStep s =
        ({ s with
           draw := { s.draw with corr := false }
           axes := ⟨s.axes.amp, { s.axes.ang with pos := encoderToAnglePos s.enc s }⟩ }, .complete)) ∧
    (corrActive s → s.enc ≠ anglePosToEncoder s.axes.ang.tgt s →
      correctionStep s =
        (singleStepAtSpeed .ang (decide (s.enc.toInt < (anglePosToEncoder s.axes.ang.tgt s).toInt)) s, .goOn))) ∧
  (∀ s : State, s.mode = .drawing → s.draw.loaded = true → s.draw.corr = true → s.draw.settle = false → ¬ qEmpty s →
    (¬ corrActive s →
      modeStep s = .next
        { s with
          draw := { s.draw with corr := false, loaded := false }
          queue := { s.queue with head := (s.queue.head + 1) % s.cfg.queueN } }) ∧
    (corrActive s → s.enc = anglePosToEncoder s.axes.ang.tgt s →
      modeStep s = .next
        { s with
          draw := { s.draw with corr := false, loaded := false }
          axes := ⟨s.axes.amp, { s.axes.ang with pos := encoderToAnglePos s.enc s }⟩
          queue := { s.queue with head := (s.queue.head + 1) % s.cfg.queueN } }) ∧
    (corrActive s → s.enc ≠ anglePosToEncoder s.axes.ang.tgt s →
      modeStep s = .next
        (singleStepAtSpeed .ang (decide (s.enc.toInt < (anglePosToEncoder s.axes.ang.tgt s).toInt)) s)))

/-- R304, R187: the correction can run forever. While the corrector stays active, the encoder does not move, ENC is not
the target count and the host is silent, every number of ticks completes, and the block is still correcting the same
waypoint. -/
def Obligations.CorrectionMayNeverEnd : Prop :=
  ∀ s : State, s.mode = .drawing → s.draw.loaded = true → s.draw.corr = true → s.draw.settle = false →
    corrActive s → s.enc ≠ anglePosToEncoder s.axes.ang.tgt s → s.framer.st ≠ .pending → QuietLink s →
    (∀ t ∈ s.ticks, t.encDelta = 0#32) →
    ∀ n, ∃ t, runSteps n s = .next t ∧ t.mode = .drawing ∧ t.draw.loaded = true ∧ t.draw.corr = true ∧
      t.queue = s.queue ∧ t.enc = s.enc

/-! ### The sequencer -/

/-- R215: all the mode transitions. The mode step leaves MODE, or goes Homing to Idle with both zero switches confirmed,
Calibrating to Homing from the max phase with both max switches confirmed, or Drawing to Idle with nothing loaded and an
empty queue; PHASE changes only from HOME to MAX, in Calibrating with both zero switches confirmed; and a dispatch
changes MODE only by a SETMODE to the mode it names. -/
def Obligations.ModeTransitionsAreTheTable : Prop :=
  (∀ s t : State, modeStep s = .next t →
    (t.mode = s.mode ∨
      (s.mode = .homing ∧ t.mode = .idle ∧ t.sweep.homed = ⟨true, true⟩) ∨
      (s.mode = .calibrating ∧ s.sweep.phase = .max ∧ t.mode = .homing ∧ t.sweep.maxed = ⟨true, true⟩ ∧
        t.cal.calibrated = true) ∨
      (s.mode = .drawing ∧ t.mode = .idle ∧ s.draw.loaded = false ∧ qEmpty s)) ∧
    (t.sweep.phase = s.sweep.phase ∨
      (s.mode = .calibrating ∧ s.sweep.phase = .home ∧ t.sweep.phase = .max ∧ t.sweep.homed = ⟨true, true⟩))) ∧
  (∀ s t : State, dispatchFrame s = .next t → t.mode ≠ s.mode →
    ∃ code, decode s.cfg s.framer.payload = .ok (.setMode code) ∧ Mode.ofCode code = some t.mode)

/-- R199 to R201 with R137: a homing tick, in Homing or in the first half of Calibrating, after which an axis is still not
homed. Each axis by itself: homed before, it stays; its zero switch confirmed, it is snapped to its reference without a
pulse (and the snap of ANG resets the encoder count); otherwise it takes one single step backward if it is ready, AMP
first. Nothing else happens. -/
def Obligations.HomingStepsBackward : Prop :=
  ∀ s : State, s.mode = .homing ∨ (s.mode = .calibrating ∧ s.sweep.phase = .home) →
    (homingTick s).sweep.homed ≠ ⟨true, true⟩ →
    modeStep s = .next (homingTick s)

/-- R203 to R205 with R137, R43: a max-phase tick after which an axis is still not confirmed. Each axis by itself:
confirmed before, it stays; its max switch confirmed, its calibration is derived without a pulse; otherwise it takes one
single step forward if it is ready, AMP first, and its MOVED counts it modulo 2^32. Nothing else happens. The count of draws
is the model's own (log 7). -/
def Obligations.MaxSweepCountsPulses : Prop :=
  ∀ s : State, s.mode = .calibrating → s.sweep.phase = .max →
    (maxTick s).sweep.maxed ≠ ⟨true, true⟩ →
    modeStep s = .next (maxTick s)

/-- R200 to R202: a homing tick after which both axes are homed, in this tick or one of them before. An axis confirmed in
this tick is snapped without a pulse, AMP to MIN_AMP and ANG to 0 with the encoder count reset. In Homing the mode becomes
Idle with the dwell started; in the first half of Calibrating, PHASE becomes MAX and MAXED and MOVED are cleared. Nothing
else happens. -/
def Obligations.HomingSnapsAndEnds : Prop :=
  (∀ s : State, (homingTick s).sweep.homed = ⟨true, true⟩ →
    (s.mode = .homing →
      ∃ t, modeStep s = .next t ∧ ModeEntered .idle (homingTick s) t ∧ OutsideSame (homingTick s) t ∧ FramerSame s t ∧
        t.corrEn = s.corrEn ∧ t.queue = s.queue ∧ t.obuf = s.obuf ∧ t.out = s.out) ∧
    (s.mode = .calibrating → s.sweep.phase = .home →
      modeStep s = .next
        { homingTick s with
          sweep := ⟨.max, ⟨true, true⟩, ⟨false, false⟩, ⟨0#32, 0#32⟩⟩
          out := s.out })) ∧
  (∀ s : State, s.mode = .homing → s.sweep.homed = ⟨false, false⟩ → debPressed .az s → debPressed .gz s →
    ∃ t, modeStep s = .next t ∧
      t.axes = ⟨{ s.axes.amp with pos := s.cal.minAmp, tgt := s.cal.minAmp },
        { s.axes.ang with pos := 0#32, tgt := 0#32 }⟩ ∧
      t.enc = 0#32 ∧ t.mode = .idle ∧ t.motor = { s.motor with idleT0 := s.now } ∧ t.out = s.out ∧
      t.sweep = { s.sweep with homed := ⟨true, true⟩ } ∧ t.queue = s.queue ∧ t.obuf = s.obuf ∧
      t.framer = s.framer ∧ t.corrEn = s.corrEn ∧ t.cal = { s.cal with calibrating := false })

/-- R305, W6 of spec/95_test_vectors.md, R199 to R202: with both zero switches sampled pressed at DEBOUNCE_K
consecutive ticks and the host silent, a fresh homing run is over: both axes at their references, and Idle. -/
def Obligations.HomingFinishes : Prop :=
  ∀ s : State, s.cfg.Valid → SwitchesInRange s → s.mode = .homing → s.sweep.homed = ⟨false, false⟩ →
    s.framer.st ≠ .pending → QuietLink s → s.cfg.debounceK ≤ s.ticks.length →
    (∀ t ∈ s.ticks, t.swRaw.az = s.cfg.swActiveLevel ∧ t.swRaw.gz = s.cfg.swActiveLevel) →
    ∃ t, runSteps s.cfg.debounceK s = .next t ∧ t.mode = .idle ∧
      t.axes.amp.pos = s.cal.minAmp ∧ t.axes.amp.tgt = s.cal.minAmp ∧
      t.axes.ang.pos = 0#32 ∧ t.axes.ang.tgt = 0#32 ∧ t.sweep.homed = ⟨true, true⟩

/-- R305, R217: homing can run forever. While AZ is never sampled pressed and the host is silent, every number of ticks
completes, and the block is still homing AMP. -/
def Obligations.HomingMayNeverEnd : Prop :=
  ∀ s : State, 1 ≤ s.cfg.debounceK → s.mode = .homing → s.sweep.homed.amp = false → s.framer.st ≠ .pending →
    QuietLink s → (∀ t ∈ s.ticks, t.swRaw.az ≠ s.cfg.swActiveLevel) →
    ∀ n, ∃ t, runSteps n s = .next t ∧ t.mode = .homing ∧ t.sweep.homed.amp = false

/-- R204 with R15: the amplitude derivation. TRAVEL is MOVED[AMP], SPMM the binary32 quotient, MIN_AMP the truncation
of the binary32 product where it has one, and MAX_AMP their sum modulo 2^32; nothing else changes. Where the truncation has
no value, MIN_AMP is a draw, any draw, fresh each time: that the n-th draw is `Config.truncDraw n` and that `draws` counts
them is the model's choice (log 7). And the binary32 operations behind it, on the encoding of IEEE 754 (log 9): on
finite operands the quotient and the product are the exact ones rounded as RoundsToNearestEven says, with the sign of the
operands' signs; a quotient by zero and a product with an infinity are an infinity or a NaN; a conversion is the integer
rounded; and a truncation is toward zero, and has a value exactly where that is an int32. -/
def Obligations.AmplitudeDerivation : Prop :=
  (∀ s : State,
    (deriveAmp s).cal.travel = s.sweep.moved.amp ∧
    (deriveAmp s).cal.spmm = f32Div (f32FromInt s.sweep.moved.amp.toInt) s.cfg.travelMm ∧
    (∀ v, truncI32 (f32Mul s.cfg.offsetMm (deriveAmp s).cal.spmm) = some v →
      (deriveAmp s).cal.minAmp = v ∧ (deriveAmp s).draws = s.draws) ∧
    (truncI32 (f32Mul s.cfg.offsetMm (deriveAmp s).cal.spmm) = none →
      (deriveAmp s).cal.minAmp = Config.truncDraw s.draws ∧ (deriveAmp s).draws = s.draws + 1) ∧
    (deriveAmp s).cal.maxAmp = BitVec.ofInt 32 (s.sweep.moved.amp.toInt + (deriveAmp s).cal.minAmp.toInt) ∧
    deriveAmp s =
      { s with
        cal := { s.cal with
          travel := (deriveAmp s).cal.travel, spmm := (deriveAmp s).cal.spmm,
          minAmp := (deriveAmp s).cal.minAmp, maxAmp := (deriveAmp s).cal.maxAmp }
        draws := (deriveAmp s).draws }) ∧
  (∀ a b : Word, f32Mag a < 0x7F800000 → f32Mag b < 0x7F800000 →
    (f32Mag b ≠ 0 →
      f32Mag (f32Div a b) = f32RoundMag (magUnits (f32Mag a)) (magUnits (f32Mag b)) ∧
      (f32Div a b).msb = (a.msb ^^ b.msb)) ∧
    (f32Mag b = 0 →
      (f32Mag a ≠ 0 → f32Mag (f32Div a b) = 0x7F800000 ∧ (f32Div a b).msb = (a.msb ^^ b.msb)) ∧
      (f32Mag a = 0 → 0x7F800000 < f32Mag (f32Div a b))) ∧
    f32Mag (f32Mul a b) = f32RoundMag (magUnits (f32Mag a) * magUnits (f32Mag b)) (2 ^ 298) ∧
    (f32Mul a b).msb = (a.msb ^^ b.msb)) ∧
  (∀ a b : Word, f32Mag a < 0x7F800000 → f32Mag b = 0x7F800000 →
    (f32Mag a ≠ 0 → f32Mag (f32Mul a b) = 0x7F800000 ∧ (f32Mul a b).msb = (a.msb ^^ b.msb)) ∧
    (f32Mag a = 0 → 0x7F800000 < f32Mag (f32Mul a b))) ∧
  (∀ z : Int, f32Mag (f32FromInt z) = f32RoundMag z.natAbs 1 ∧ (f32FromInt z).msb = decide (z < 0)) ∧
  (∀ x v : Word, truncI32 x = some v ↔
    f32Mag x < 0x7F800000 ∧
    v.toInt = (if x.msb then -(magUnits (f32Mag x) : Int) else magUnits (f32Mag x)).tdiv (2 ^ 149))

/-- R203 to R206: a max-phase tick after which both axes are confirmed, in this tick or one of them before. An axis
confirmed in this tick is derived without a pulse (TRAVEL, SPMM, MIN_AMP and MAX_AMP as DeriveAmp computes them, MAX_ANG
from MOVED[ANG], MAX_ENC from ENC), and one confirmed before keeps what was derived then; CALIBRATED is set, CALIBRATING
cleared, and Homing is entered. The count of draws is the model's own (log 7). -/
def Obligations.CalibrationCompletes : Prop :=
  (∀ s : State, s.mode = .calibrating → s.sweep.phase = .max → (maxTick s).sweep.maxed = ⟨true, true⟩ →
    ∃ t, modeStep s = .next t ∧ t.mode = .homing ∧
      t.cal = { (maxTick s).cal with calibrated := true, calibrating := false } ∧
      t.sweep = { (maxTick s).sweep with homed := ⟨false, false⟩ } ∧
      t.motor = { s.motor with en := true } ∧
      t.draw = { s.draw with loaded := false, corr := false, settle := false } ∧
      t.draws = (maxTick s).draws ∧ t.axes = s.axes ∧ t.out = s.out ∧ t.enc = s.enc ∧ t.queue = s.queue ∧
      FramerSame s t ∧ t.cfg = s.cfg ∧ t.sw = s.sw ∧ t.obuf = s.obuf ∧ t.corrEn = s.corrEn ∧ t.now = s.now ∧
      t.rx = s.rx ∧ t.ticks = s.ticks) ∧
  (∀ s : State, s.mode = .calibrating → s.sweep.phase = .max → s.sweep.maxed = ⟨false, false⟩ →
    debPressed .ax s → debPressed .gx s →
    ∃ t, modeStep s = .next t ∧ t.mode = .homing ∧ t.cal.calibrated = true ∧ t.cal.calibrating = false ∧
      t.cal.travel = s.sweep.moved.amp ∧ t.cal.spmm = (deriveAmp s).cal.spmm ∧
      t.cal.minAmp = (deriveAmp s).cal.minAmp ∧ t.cal.maxAmp = s.sweep.moved.amp + t.cal.minAmp ∧
      t.cal.maxAng = s.sweep.moved.ang ∧ t.cal.maxEnc = s.enc ∧
      t.sweep.homed = ⟨false, false⟩ ∧ t.sweep.maxed = ⟨true, true⟩ ∧ t.motor.en = true ∧
      t.axes = s.axes ∧ t.out = s.out ∧ t.enc = s.enc ∧ t.queue = s.queue ∧ t.framer = s.framer)

/-- R15's round to nearest, ties to even, behind f32_from_int, f32_div and f32_mul; which bits encode which number, the
subnormals and the overflow threshold are those of IEEE 754, which the model presumes (log 9). A non-negative rational n/d
below the threshold is rounded to a nearest binary32, to the even one of two nearest; at or above it, to infinity. -/
def Obligations.RoundsToNearestEven : Prop :=
  ∀ n d : Nat, 0 < d →
    ((2 ^ 25 - 1) * 2 ^ 252 * d ≤ n * 2 ^ 149 → f32RoundMag n d = 0x7F800000) ∧
    (n * 2 ^ 149 < (2 ^ 25 - 1) * 2 ^ 252 * d →
      f32RoundMag n d < 0x7F800000 ∧
      ∀ m, m < 0x7F800000 → m ≠ f32RoundMag n d →
        |((n * 2 ^ 149 : Nat) : Int) - magUnits (f32RoundMag n d) * d| <
            |((n * 2 ^ 149 : Nat) : Int) - magUnits m * d| ∨
        (|((n * 2 ^ 149 : Nat) : Int) - magUnits (f32RoundMag n d) * d| =
            |((n * 2 ^ 149 : Nat) : Int) - magUnits m * d| ∧
          f32RoundMag n d % 2 = 0))

/-! ### Drawing -/

/-- R209, R210: a Drawing tick with nothing loaded and no hold loads the waypoint at HEAD: targets, clamped speeds and
LOADED, with the pen commanded and the hold started exactly when no pen command came before or the pen differs by more
than PEN_TOL; no axis steps and the queue is left as it is. -/
def Obligations.DrawingLoadsWaypoint : Prop :=
  ∀ (s : State) (w : Waypoint), s.mode = .drawing → s.draw.loaded = false → s.draw.settle = false → ¬ qEmpty s →
    s.queue.slots[s.queue.head]? = some w →
    ∃ t, modeStep s = .next t ∧
      t.axes.amp = { s.axes.amp.setSpeed s.cfg w.vamp with tgt := w.amp } ∧
      t.axes.ang = { s.axes.ang.setSpeed s.cfg w.vang with tgt := w.ang } ∧
      t.draw.loaded = true ∧ t.draw.corr = false ∧ t.queue = s.queue ∧ t.mode = .drawing ∧
      t.out.pulses = s.out.pulses ∧
      (s.draw.penValid = false ∨ (s.cfg.penTol : Int) < |w.pen.toInt - s.draw.penLast.toInt| →
        t.out.penCmd = some w.pen ∧ t.draw.penLast = w.pen ∧ t.draw.penValid = true ∧ t.draw.settle = true ∧
        t.draw.settleT0 = s.now) ∧
      (s.draw.penValid = true → |w.pen.toInt - s.draw.penLast.toInt| ≤ (s.cfg.penTol : Int) →
        t.out = s.out ∧ t.draw = { s.draw with loaded := true, corr := false })

/-- R208: during the settle hold a Drawing mode step does nothing; once PEN_SETTLE_US has elapsed it clears SETTLE and
goes on in the same tick as if no hold had been. -/
def Obligations.SettleHoldsThenGoesOn : Prop :=
  ∀ s : State, s.mode = .drawing → s.draw.settle = true →
    ((s.now - s.draw.settleT0).toNat < s.cfg.penSettleUs → modeStep s = .next s) ∧
    (s.cfg.penSettleUs ≤ (s.now - s.draw.settleT0).toNat →
      modeStep s = modeStep { s with draw := { s.draw with settle := false } })

/-- R207, R211, R212, R181, R182: a Drawing tick that steps: AMP then ANG take their stepping call. Where an axis is then
off its target, nothing else changes. Where both are at their targets, the waypoint completes, HEAD advancing and LOADED
clearing, exactly when the corrector is not active or the encoder-derived position is less than half an encoder unit from
POS[ANG], and otherwise CORR is set. -/
def Obligations.DrawingStepsAndCompletes : Prop :=
  ∀ s : State, s.mode = .drawing → s.draw.loaded = true → s.draw.corr = false → s.draw.settle = false → ¬ qEmpty s →
    ∃ t, modeStep s = .next t ∧
      t.axes = (stepTowardTarget .ang (stepTowardTarget .amp s)).axes ∧
      t.out = (stepTowardTarget .ang (stepTowardTarget .amp s)).out ∧
      t = { s with axes := t.axes, out := t.out, queue := t.queue, draw := t.draw } ∧
      (t.axes.amp.pos = t.axes.amp.tgt ∧ t.axes.ang.pos = t.axes.ang.tgt →
        (¬ corrActive s ∨ HalfUnitNear s t.axes.ang.pos →
          t.queue = { s.queue with head := (s.queue.head + 1) % s.cfg.queueN } ∧
          t.draw = { s.draw with loaded := false }) ∧
        (corrActive s → ¬ HalfUnitNear s t.axes.ang.pos →
          t.queue = s.queue ∧ t.draw = { s.draw with corr := true })) ∧
      (¬ (t.axes.amp.pos = t.axes.amp.tgt ∧ t.axes.ang.pos = t.axes.ang.tgt) →
        t.queue = s.queue ∧ t.draw = s.draw)

/-- R213 with R193, R194: a Drawing tick with nothing loaded and an empty queue enters Idle, with every register of that
entry, and changes no other register: the axes, the queue and the output are left as they are. -/
def Obligations.DrawingEndsOnEmptyQueue : Prop :=
  ∀ s : State, s.mode = .drawing → s.draw.loaded = false → s.draw.settle = false → qEmpty s →
    ∃ t, modeStep s = .next t ∧ ModeEntered .idle s t ∧ OutsideSame s t ∧ FramerSame s t ∧
      t.corrEn = s.corrEn ∧ t.queue = s.queue ∧ t.obuf = s.obuf ∧ t.out = s.out

/-- R181 (W9 of spec/95_test_vectors.md): with the corrector not active, a Drawing mode step does not depend on the
encoder count. -/
def Obligations.InactiveCorrectorIgnoresEncoder : Prop :=
  ∀ (s t : State) (e : Word), s.mode = .drawing → ¬ corrActive s → modeStep s = .next t →
    modeStep { s with enc := e } = .next { t with enc := e }

/-- R277: outside Homing and Calibrating the mode step does not depend on the switches. -/
def Obligations.SwitchesMatterOnlyInSweeps : Prop :=
  ∀ (s t : State) (sw : PerSwitch SwitchRegs), s.mode = .idle ∨ s.mode = .drawing → modeStep s = .next t →
    modeStep { s with sw := sw } = .next { t with sw := sw }

/-- R235: the dispatch hold ends. With a frame pending and the transport accepting a byte at every tick, a frame is
dispatched after exactly as many ticks as OBUF lacks free bytes, at most 95, and until then the framer does not
change. -/
def Obligations.DispatchHoldEnds : Prop :=
  ∀ s : State, Inv s → s.framer.st = .pending → (∀ t ∈ s.ticks, t.outReady = true) →
    s.obuf.length + 95 - s.cfg.outBufLen < s.ticks.length →
    s.obuf.length + 95 - s.cfg.outBufLen ≤ 95 ∧
    (∀ k, k ≤ s.obuf.length + 95 - s.cfg.outBufLen → ∃ u, runSteps k s = .next u ∧ u.framer = s.framer) ∧
    ∃ t, runSteps (s.obuf.length + 95 - s.cfg.outBufLen + 1) s = .next t ∧ t.out.diag ≠ []

/-- The model's choice of where a command's bits are placed for the next step (log 4): the payload placed is the payload
the next dispatch reads, with room for its reply and a tick scheduled. -/
def Obligations.PlacedFrameIsPending : Prop :=
  ∀ (s : State) (p : List Byte), s.framer.pbuf.wf = true → s.cfg.Valid →
    (placeFrame p s).framer.payload = p ∧ (placeFrame p s).framer.st = .pending ∧
    (placeFrame p s).framer.ovf = false ∧ replyRoom (placeFrame p s) ∧
    (placeFrame p s).framer.pbuf.wf = true ∧ (placeFrame p s).ticks ≠ [] ∧ (placeFrame p s).rx = []
end

