-- ==== Sys2Proof/Laws/State.lean ====
section
/-! SUPPORT. One lemma per field per update of the state, so that no later proof unfolds a record update. -/

namespace Sys2Proof.Machine

section
variable (s : State)

@[simp] theorem State.onAxis_cfg (a : Axis) (f : AxisRegs → AxisRegs) : (s.onAxis a f).cfg = s.cfg := rfl
@[simp] theorem State.onAxis_axes (a : Axis) (f : AxisRegs → AxisRegs) : (s.onAxis a f).axes = s.axes.set a (f (s.axes.get a)) := rfl
@[simp] theorem State.onAxis_cal (a : Axis) (f : AxisRegs → AxisRegs) : (s.onAxis a f).cal = s.cal := rfl
@[simp] theorem State.onAxis_corrEn (a : Axis) (f : AxisRegs → AxisRegs) : (s.onAxis a f).corrEn = s.corrEn := rfl
@[simp] theorem State.onAxis_mode (a : Axis) (f : AxisRegs → AxisRegs) : (s.onAxis a f).mode = s.mode := rfl
@[simp] theorem State.onAxis_sweep (a : Axis) (f : AxisRegs → AxisRegs) : (s.onAxis a f).sweep = s.sweep := rfl
@[simp] theorem State.onAxis_draw (a : Axis) (f : AxisRegs → AxisRegs) : (s.onAxis a f).draw = s.draw := rfl
@[simp] theorem State.onAxis_motor (a : Axis) (f : AxisRegs → AxisRegs) : (s.onAxis a f).motor = s.motor := rfl
@[simp] theorem State.onAxis_enc (a : Axis) (f : AxisRegs → AxisRegs) : (s.onAxis a f).enc = s.enc := rfl
@[simp] theorem State.onAxis_sw (a : Axis) (f : AxisRegs → AxisRegs) : (s.onAxis a f).sw = s.sw := rfl
@[simp] theorem State.onAxis_queue (a : Axis) (f : AxisRegs → AxisRegs) : (s.onAxis a f).queue = s.queue := rfl
@[simp] theorem State.onAxis_framer (a : Axis) (f : AxisRegs → AxisRegs) : (s.onAxis a f).framer = s.framer := rfl
@[simp] theorem State.onAxis_obuf (a : Axis) (f : AxisRegs → AxisRegs) : (s.onAxis a f).obuf = s.obuf := rfl
@[simp] theorem State.onAxis_now (a : Axis) (f : AxisRegs → AxisRegs) : (s.onAxis a f).now = s.now := rfl
@[simp] theorem State.onAxis_out (a : Axis) (f : AxisRegs → AxisRegs) : (s.onAxis a f).out = s.out := rfl
@[simp] theorem State.onAxis_draws (a : Axis) (f : AxisRegs → AxisRegs) : (s.onAxis a f).draws = s.draws := rfl
@[simp] theorem State.onAxis_rx (a : Axis) (f : AxisRegs → AxisRegs) : (s.onAxis a f).rx = s.rx := rfl
@[simp] theorem State.onAxis_ticks (a : Axis) (f : AxisRegs → AxisRegs) : (s.onAxis a f).ticks = s.ticks := rfl

@[simp] theorem State.onCal_cfg (f : CalRegs → CalRegs) : (s.onCal f).cfg = s.cfg := rfl
@[simp] theorem State.onCal_axes (f : CalRegs → CalRegs) : (s.onCal f).axes = s.axes := rfl
@[simp] theorem State.onCal_cal (f : CalRegs → CalRegs) : (s.onCal f).cal = f s.cal := rfl
@[simp] theorem State.onCal_corrEn (f : CalRegs → CalRegs) : (s.onCal f).corrEn = s.corrEn := rfl
@[simp] theorem State.onCal_mode (f : CalRegs → CalRegs) : (s.onCal f).mode = s.mode := rfl
@[simp] theorem State.onCal_sweep (f : CalRegs → CalRegs) : (s.onCal f).sweep = s.sweep := rfl
@[simp] theorem State.onCal_draw (f : CalRegs → CalRegs) : (s.onCal f).draw = s.draw := rfl
@[simp] theorem State.onCal_motor (f : CalRegs → CalRegs) : (s.onCal f).motor = s.motor := rfl
@[simp] theorem State.onCal_enc (f : CalRegs → CalRegs) : (s.onCal f).enc = s.enc := rfl
@[simp] theorem State.onCal_sw (f : CalRegs → CalRegs) : (s.onCal f).sw = s.sw := rfl
@[simp] theorem State.onCal_queue (f : CalRegs → CalRegs) : (s.onCal f).queue = s.queue := rfl
@[simp] theorem State.onCal_framer (f : CalRegs → CalRegs) : (s.onCal f).framer = s.framer := rfl
@[simp] theorem State.onCal_obuf (f : CalRegs → CalRegs) : (s.onCal f).obuf = s.obuf := rfl
@[simp] theorem State.onCal_now (f : CalRegs → CalRegs) : (s.onCal f).now = s.now := rfl
@[simp] theorem State.onCal_out (f : CalRegs → CalRegs) : (s.onCal f).out = s.out := rfl
@[simp] theorem State.onCal_draws (f : CalRegs → CalRegs) : (s.onCal f).draws = s.draws := rfl
@[simp] theorem State.onCal_rx (f : CalRegs → CalRegs) : (s.onCal f).rx = s.rx := rfl
@[simp] theorem State.onCal_ticks (f : CalRegs → CalRegs) : (s.onCal f).ticks = s.ticks := rfl

@[simp] theorem State.setCorrEn_cfg (v : Bool) : (s.setCorrEn v).cfg = s.cfg := rfl
@[simp] theorem State.setCorrEn_axes (v : Bool) : (s.setCorrEn v).axes = s.axes := rfl
@[simp] theorem State.setCorrEn_cal (v : Bool) : (s.setCorrEn v).cal = s.cal := rfl
@[simp] theorem State.setCorrEn_corrEn (v : Bool) : (s.setCorrEn v).corrEn = v := rfl
@[simp] theorem State.setCorrEn_mode (v : Bool) : (s.setCorrEn v).mode = s.mode := rfl
@[simp] theorem State.setCorrEn_sweep (v : Bool) : (s.setCorrEn v).sweep = s.sweep := rfl
@[simp] theorem State.setCorrEn_draw (v : Bool) : (s.setCorrEn v).draw = s.draw := rfl
@[simp] theorem State.setCorrEn_motor (v : Bool) : (s.setCorrEn v).motor = s.motor := rfl
@[simp] theorem State.setCorrEn_enc (v : Bool) : (s.setCorrEn v).enc = s.enc := rfl
@[simp] theorem State.setCorrEn_sw (v : Bool) : (s.setCorrEn v).sw = s.sw := rfl
@[simp] theorem State.setCorrEn_queue (v : Bool) : (s.setCorrEn v).queue = s.queue := rfl
@[simp] theorem State.setCorrEn_framer (v : Bool) : (s.setCorrEn v).framer = s.framer := rfl
@[simp] theorem State.setCorrEn_obuf (v : Bool) : (s.setCorrEn v).obuf = s.obuf := rfl
@[simp] theorem State.setCorrEn_now (v : Bool) : (s.setCorrEn v).now = s.now := rfl
@[simp] theorem State.setCorrEn_out (v : Bool) : (s.setCorrEn v).out = s.out := rfl
@[simp] theorem State.setCorrEn_draws (v : Bool) : (s.setCorrEn v).draws = s.draws := rfl
@[simp] theorem State.setCorrEn_rx (v : Bool) : (s.setCorrEn v).rx = s.rx := rfl
@[simp] theorem State.setCorrEn_ticks (v : Bool) : (s.setCorrEn v).ticks = s.ticks := rfl

@[simp] theorem State.setMode_cfg (v : Mode) : (s.setMode v).cfg = s.cfg := rfl
@[simp] theorem State.setMode_axes (v : Mode) : (s.setMode v).axes = s.axes := rfl
@[simp] theorem State.setMode_cal (v : Mode) : (s.setMode v).cal = s.cal := rfl
@[simp] theorem State.setMode_corrEn (v : Mode) : (s.setMode v).corrEn = s.corrEn := rfl
@[simp] theorem State.setMode_mode (v : Mode) : (s.setMode v).mode = v := rfl
@[simp] theorem State.setMode_sweep (v : Mode) : (s.setMode v).sweep = s.sweep := rfl
@[simp] theorem State.setMode_draw (v : Mode) : (s.setMode v).draw = s.draw := rfl
@[simp] theorem State.setMode_motor (v : Mode) : (s.setMode v).motor = s.motor := rfl
@[simp] theorem State.setMode_enc (v : Mode) : (s.setMode v).enc = s.enc := rfl
@[simp] theorem State.setMode_sw (v : Mode) : (s.setMode v).sw = s.sw := rfl
@[simp] theorem State.setMode_queue (v : Mode) : (s.setMode v).queue = s.queue := rfl
@[simp] theorem State.setMode_framer (v : Mode) : (s.setMode v).framer = s.framer := rfl
@[simp] theorem State.setMode_obuf (v : Mode) : (s.setMode v).obuf = s.obuf := rfl
@[simp] theorem State.setMode_now (v : Mode) : (s.setMode v).now = s.now := rfl
@[simp] theorem State.setMode_out (v : Mode) : (s.setMode v).out = s.out := rfl
@[simp] theorem State.setMode_draws (v : Mode) : (s.setMode v).draws = s.draws := rfl
@[simp] theorem State.setMode_rx (v : Mode) : (s.setMode v).rx = s.rx := rfl
@[simp] theorem State.setMode_ticks (v : Mode) : (s.setMode v).ticks = s.ticks := rfl

@[simp] theorem State.onSweep_cfg (f : SweepRegs → SweepRegs) : (s.onSweep f).cfg = s.cfg := rfl
@[simp] theorem State.onSweep_axes (f : SweepRegs → SweepRegs) : (s.onSweep f).axes = s.axes := rfl
@[simp] theorem State.onSweep_cal (f : SweepRegs → SweepRegs) : (s.onSweep f).cal = s.cal := rfl
@[simp] theorem State.onSweep_corrEn (f : SweepRegs → SweepRegs) : (s.onSweep f).corrEn = s.corrEn := rfl
@[simp] theorem State.onSweep_mode (f : SweepRegs → SweepRegs) : (s.onSweep f).mode = s.mode := rfl
@[simp] theorem State.onSweep_sweep (f : SweepRegs → SweepRegs) : (s.onSweep f).sweep = f s.sweep := rfl
@[simp] theorem State.onSweep_draw (f : SweepRegs → SweepRegs) : (s.onSweep f).draw = s.draw := rfl
@[simp] theorem State.onSweep_motor (f : SweepRegs → SweepRegs) : (s.onSweep f).motor = s.motor := rfl
@[simp] theorem State.onSweep_enc (f : SweepRegs → SweepRegs) : (s.onSweep f).enc = s.enc := rfl
@[simp] theorem State.onSweep_sw (f : SweepRegs → SweepRegs) : (s.onSweep f).sw = s.sw := rfl
@[simp] theorem State.onSweep_queue (f : SweepRegs → SweepRegs) : (s.onSweep f).queue = s.queue := rfl
@[simp] theorem State.onSweep_framer (f : SweepRegs → SweepRegs) : (s.onSweep f).framer = s.framer := rfl
@[simp] theorem State.onSweep_obuf (f : SweepRegs → SweepRegs) : (s.onSweep f).obuf = s.obuf := rfl
@[simp] theorem State.onSweep_now (f : SweepRegs → SweepRegs) : (s.onSweep f).now = s.now := rfl
@[simp] theorem State.onSweep_out (f : SweepRegs → SweepRegs) : (s.onSweep f).out = s.out := rfl
@[simp] theorem State.onSweep_draws (f : SweepRegs → SweepRegs) : (s.onSweep f).draws = s.draws := rfl
@[simp] theorem State.onSweep_rx (f : SweepRegs → SweepRegs) : (s.onSweep f).rx = s.rx := rfl
@[simp] theorem State.onSweep_ticks (f : SweepRegs → SweepRegs) : (s.onSweep f).ticks = s.ticks := rfl

@[simp] theorem State.onDraw_cfg (f : DrawRegs → DrawRegs) : (s.onDraw f).cfg = s.cfg := rfl
@[simp] theorem State.onDraw_axes (f : DrawRegs → DrawRegs) : (s.onDraw f).axes = s.axes := rfl
@[simp] theorem State.onDraw_cal (f : DrawRegs → DrawRegs) : (s.onDraw f).cal = s.cal := rfl
@[simp] theorem State.onDraw_corrEn (f : DrawRegs → DrawRegs) : (s.onDraw f).corrEn = s.corrEn := rfl
@[simp] theorem State.onDraw_mode (f : DrawRegs → DrawRegs) : (s.onDraw f).mode = s.mode := rfl
@[simp] theorem State.onDraw_sweep (f : DrawRegs → DrawRegs) : (s.onDraw f).sweep = s.sweep := rfl
@[simp] theorem State.onDraw_draw (f : DrawRegs → DrawRegs) : (s.onDraw f).draw = f s.draw := rfl
@[simp] theorem State.onDraw_motor (f : DrawRegs → DrawRegs) : (s.onDraw f).motor = s.motor := rfl
@[simp] theorem State.onDraw_enc (f : DrawRegs → DrawRegs) : (s.onDraw f).enc = s.enc := rfl
@[simp] theorem State.onDraw_sw (f : DrawRegs → DrawRegs) : (s.onDraw f).sw = s.sw := rfl
@[simp] theorem State.onDraw_queue (f : DrawRegs → DrawRegs) : (s.onDraw f).queue = s.queue := rfl
@[simp] theorem State.onDraw_framer (f : DrawRegs → DrawRegs) : (s.onDraw f).framer = s.framer := rfl
@[simp] theorem State.onDraw_obuf (f : DrawRegs → DrawRegs) : (s.onDraw f).obuf = s.obuf := rfl
@[simp] theorem State.onDraw_now (f : DrawRegs → DrawRegs) : (s.onDraw f).now = s.now := rfl
@[simp] theorem State.onDraw_out (f : DrawRegs → DrawRegs) : (s.onDraw f).out = s.out := rfl
@[simp] theorem State.onDraw_draws (f : DrawRegs → DrawRegs) : (s.onDraw f).draws = s.draws := rfl
@[simp] theorem State.onDraw_rx (f : DrawRegs → DrawRegs) : (s.onDraw f).rx = s.rx := rfl
@[simp] theorem State.onDraw_ticks (f : DrawRegs → DrawRegs) : (s.onDraw f).ticks = s.ticks := rfl

@[simp] theorem State.onMotor_cfg (f : MotorRegs → MotorRegs) : (s.onMotor f).cfg = s.cfg := rfl
@[simp] theorem State.onMotor_axes (f : MotorRegs → MotorRegs) : (s.onMotor f).axes = s.axes := rfl
@[simp] theorem State.onMotor_cal (f : MotorRegs → MotorRegs) : (s.onMotor f).cal = s.cal := rfl
@[simp] theorem State.onMotor_corrEn (f : MotorRegs → MotorRegs) : (s.onMotor f).corrEn = s.corrEn := rfl
@[simp] theorem State.onMotor_mode (f : MotorRegs → MotorRegs) : (s.onMotor f).mode = s.mode := rfl
@[simp] theorem State.onMotor_sweep (f : MotorRegs → MotorRegs) : (s.onMotor f).sweep = s.sweep := rfl
@[simp] theorem State.onMotor_draw (f : MotorRegs → MotorRegs) : (s.onMotor f).draw = s.draw := rfl
@[simp] theorem State.onMotor_motor (f : MotorRegs → MotorRegs) : (s.onMotor f).motor = f s.motor := rfl
@[simp] theorem State.onMotor_enc (f : MotorRegs → MotorRegs) : (s.onMotor f).enc = s.enc := rfl
@[simp] theorem State.onMotor_sw (f : MotorRegs → MotorRegs) : (s.onMotor f).sw = s.sw := rfl
@[simp] theorem State.onMotor_queue (f : MotorRegs → MotorRegs) : (s.onMotor f).queue = s.queue := rfl
@[simp] theorem State.onMotor_framer (f : MotorRegs → MotorRegs) : (s.onMotor f).framer = s.framer := rfl
@[simp] theorem State.onMotor_obuf (f : MotorRegs → MotorRegs) : (s.onMotor f).obuf = s.obuf := rfl
@[simp] theorem State.onMotor_now (f : MotorRegs → MotorRegs) : (s.onMotor f).now = s.now := rfl
@[simp] theorem State.onMotor_out (f : MotorRegs → MotorRegs) : (s.onMotor f).out = s.out := rfl
@[simp] theorem State.onMotor_draws (f : MotorRegs → MotorRegs) : (s.onMotor f).draws = s.draws := rfl
@[simp] theorem State.onMotor_rx (f : MotorRegs → MotorRegs) : (s.onMotor f).rx = s.rx := rfl
@[simp] theorem State.onMotor_ticks (f : MotorRegs → MotorRegs) : (s.onMotor f).ticks = s.ticks := rfl

@[simp] theorem State.setEnc_cfg (v : Word) : (s.setEnc v).cfg = s.cfg := rfl
@[simp] theorem State.setEnc_axes (v : Word) : (s.setEnc v).axes = s.axes := rfl
@[simp] theorem State.setEnc_cal (v : Word) : (s.setEnc v).cal = s.cal := rfl
@[simp] theorem State.setEnc_corrEn (v : Word) : (s.setEnc v).corrEn = s.corrEn := rfl
@[simp] theorem State.setEnc_mode (v : Word) : (s.setEnc v).mode = s.mode := rfl
@[simp] theorem State.setEnc_sweep (v : Word) : (s.setEnc v).sweep = s.sweep := rfl
@[simp] theorem State.setEnc_draw (v : Word) : (s.setEnc v).draw = s.draw := rfl
@[simp] theorem State.setEnc_motor (v : Word) : (s.setEnc v).motor = s.motor := rfl
@[simp] theorem State.setEnc_enc (v : Word) : (s.setEnc v).enc = v := rfl
@[simp] theorem State.setEnc_sw (v : Word) : (s.setEnc v).sw = s.sw := rfl
@[simp] theorem State.setEnc_queue (v : Word) : (s.setEnc v).queue = s.queue := rfl
@[simp] theorem State.setEnc_framer (v : Word) : (s.setEnc v).framer = s.framer := rfl
@[simp] theorem State.setEnc_obuf (v : Word) : (s.setEnc v).obuf = s.obuf := rfl
@[simp] theorem State.setEnc_now (v : Word) : (s.setEnc v).now = s.now := rfl
@[simp] theorem State.setEnc_out (v : Word) : (s.setEnc v).out = s.out := rfl
@[simp] theorem State.setEnc_draws (v : Word) : (s.setEnc v).draws = s.draws := rfl
@[simp] theorem State.setEnc_rx (v : Word) : (s.setEnc v).rx = s.rx := rfl
@[simp] theorem State.setEnc_ticks (v : Word) : (s.setEnc v).ticks = s.ticks := rfl

@[simp] theorem State.setSw_cfg (v : PerSwitch SwitchRegs) : (s.setSw v).cfg = s.cfg := rfl
@[simp] theorem State.setSw_axes (v : PerSwitch SwitchRegs) : (s.setSw v).axes = s.axes := rfl
@[simp] theorem State.setSw_cal (v : PerSwitch SwitchRegs) : (s.setSw v).cal = s.cal := rfl
@[simp] theorem State.setSw_corrEn (v : PerSwitch SwitchRegs) : (s.setSw v).corrEn = s.corrEn := rfl
@[simp] theorem State.setSw_mode (v : PerSwitch SwitchRegs) : (s.setSw v).mode = s.mode := rfl
@[simp] theorem State.setSw_sweep (v : PerSwitch SwitchRegs) : (s.setSw v).sweep = s.sweep := rfl
@[simp] theorem State.setSw_draw (v : PerSwitch SwitchRegs) : (s.setSw v).draw = s.draw := rfl
@[simp] theorem State.setSw_motor (v : PerSwitch SwitchRegs) : (s.setSw v).motor = s.motor := rfl
@[simp] theorem State.setSw_enc (v : PerSwitch SwitchRegs) : (s.setSw v).enc = s.enc := rfl
@[simp] theorem State.setSw_sw (v : PerSwitch SwitchRegs) : (s.setSw v).sw = v := rfl
@[simp] theorem State.setSw_queue (v : PerSwitch SwitchRegs) : (s.setSw v).queue = s.queue := rfl
@[simp] theorem State.setSw_framer (v : PerSwitch SwitchRegs) : (s.setSw v).framer = s.framer := rfl
@[simp] theorem State.setSw_obuf (v : PerSwitch SwitchRegs) : (s.setSw v).obuf = s.obuf := rfl
@[simp] theorem State.setSw_now (v : PerSwitch SwitchRegs) : (s.setSw v).now = s.now := rfl
@[simp] theorem State.setSw_out (v : PerSwitch SwitchRegs) : (s.setSw v).out = s.out := rfl
@[simp] theorem State.setSw_draws (v : PerSwitch SwitchRegs) : (s.setSw v).draws = s.draws := rfl
@[simp] theorem State.setSw_rx (v : PerSwitch SwitchRegs) : (s.setSw v).rx = s.rx := rfl
@[simp] theorem State.setSw_ticks (v : PerSwitch SwitchRegs) : (s.setSw v).ticks = s.ticks := rfl

@[simp] theorem State.onQueue_cfg (f : QueueRegs → QueueRegs) : (s.onQueue f).cfg = s.cfg := rfl
@[simp] theorem State.onQueue_axes (f : QueueRegs → QueueRegs) : (s.onQueue f).axes = s.axes := rfl
@[simp] theorem State.onQueue_cal (f : QueueRegs → QueueRegs) : (s.onQueue f).cal = s.cal := rfl
@[simp] theorem State.onQueue_corrEn (f : QueueRegs → QueueRegs) : (s.onQueue f).corrEn = s.corrEn := rfl
@[simp] theorem State.onQueue_mode (f : QueueRegs → QueueRegs) : (s.onQueue f).mode = s.mode := rfl
@[simp] theorem State.onQueue_sweep (f : QueueRegs → QueueRegs) : (s.onQueue f).sweep = s.sweep := rfl
@[simp] theorem State.onQueue_draw (f : QueueRegs → QueueRegs) : (s.onQueue f).draw = s.draw := rfl
@[simp] theorem State.onQueue_motor (f : QueueRegs → QueueRegs) : (s.onQueue f).motor = s.motor := rfl
@[simp] theorem State.onQueue_enc (f : QueueRegs → QueueRegs) : (s.onQueue f).enc = s.enc := rfl
@[simp] theorem State.onQueue_sw (f : QueueRegs → QueueRegs) : (s.onQueue f).sw = s.sw := rfl
@[simp] theorem State.onQueue_queue (f : QueueRegs → QueueRegs) : (s.onQueue f).queue = f s.queue := rfl
@[simp] theorem State.onQueue_framer (f : QueueRegs → QueueRegs) : (s.onQueue f).framer = s.framer := rfl
@[simp] theorem State.onQueue_obuf (f : QueueRegs → QueueRegs) : (s.onQueue f).obuf = s.obuf := rfl
@[simp] theorem State.onQueue_now (f : QueueRegs → QueueRegs) : (s.onQueue f).now = s.now := rfl
@[simp] theorem State.onQueue_out (f : QueueRegs → QueueRegs) : (s.onQueue f).out = s.out := rfl
@[simp] theorem State.onQueue_draws (f : QueueRegs → QueueRegs) : (s.onQueue f).draws = s.draws := rfl
@[simp] theorem State.onQueue_rx (f : QueueRegs → QueueRegs) : (s.onQueue f).rx = s.rx := rfl
@[simp] theorem State.onQueue_ticks (f : QueueRegs → QueueRegs) : (s.onQueue f).ticks = s.ticks := rfl

@[simp] theorem State.onFramer_cfg (f : FramerRegs → FramerRegs) : (s.onFramer f).cfg = s.cfg := rfl
@[simp] theorem State.onFramer_axes (f : FramerRegs → FramerRegs) : (s.onFramer f).axes = s.axes := rfl
@[simp] theorem State.onFramer_cal (f : FramerRegs → FramerRegs) : (s.onFramer f).cal = s.cal := rfl
@[simp] theorem State.onFramer_corrEn (f : FramerRegs → FramerRegs) : (s.onFramer f).corrEn = s.corrEn := rfl
@[simp] theorem State.onFramer_mode (f : FramerRegs → FramerRegs) : (s.onFramer f).mode = s.mode := rfl
@[simp] theorem State.onFramer_sweep (f : FramerRegs → FramerRegs) : (s.onFramer f).sweep = s.sweep := rfl
@[simp] theorem State.onFramer_draw (f : FramerRegs → FramerRegs) : (s.onFramer f).draw = s.draw := rfl
@[simp] theorem State.onFramer_motor (f : FramerRegs → FramerRegs) : (s.onFramer f).motor = s.motor := rfl
@[simp] theorem State.onFramer_enc (f : FramerRegs → FramerRegs) : (s.onFramer f).enc = s.enc := rfl
@[simp] theorem State.onFramer_sw (f : FramerRegs → FramerRegs) : (s.onFramer f).sw = s.sw := rfl
@[simp] theorem State.onFramer_queue (f : FramerRegs → FramerRegs) : (s.onFramer f).queue = s.queue := rfl
@[simp] theorem State.onFramer_framer (f : FramerRegs → FramerRegs) : (s.onFramer f).framer = f s.framer := rfl
@[simp] theorem State.onFramer_obuf (f : FramerRegs → FramerRegs) : (s.onFramer f).obuf = s.obuf := rfl
@[simp] theorem State.onFramer_now (f : FramerRegs → FramerRegs) : (s.onFramer f).now = s.now := rfl
@[simp] theorem State.onFramer_out (f : FramerRegs → FramerRegs) : (s.onFramer f).out = s.out := rfl
@[simp] theorem State.onFramer_draws (f : FramerRegs → FramerRegs) : (s.onFramer f).draws = s.draws := rfl
@[simp] theorem State.onFramer_rx (f : FramerRegs → FramerRegs) : (s.onFramer f).rx = s.rx := rfl
@[simp] theorem State.onFramer_ticks (f : FramerRegs → FramerRegs) : (s.onFramer f).ticks = s.ticks := rfl

@[simp] theorem State.setObuf_cfg (v : List Byte) : (s.setObuf v).cfg = s.cfg := rfl
@[simp] theorem State.setObuf_axes (v : List Byte) : (s.setObuf v).axes = s.axes := rfl
@[simp] theorem State.setObuf_cal (v : List Byte) : (s.setObuf v).cal = s.cal := rfl
@[simp] theorem State.setObuf_corrEn (v : List Byte) : (s.setObuf v).corrEn = s.corrEn := rfl
@[simp] theorem State.setObuf_mode (v : List Byte) : (s.setObuf v).mode = s.mode := rfl
@[simp] theorem State.setObuf_sweep (v : List Byte) : (s.setObuf v).sweep = s.sweep := rfl
@[simp] theorem State.setObuf_draw (v : List Byte) : (s.setObuf v).draw = s.draw := rfl
@[simp] theorem State.setObuf_motor (v : List Byte) : (s.setObuf v).motor = s.motor := rfl
@[simp] theorem State.setObuf_enc (v : List Byte) : (s.setObuf v).enc = s.enc := rfl
@[simp] theorem State.setObuf_sw (v : List Byte) : (s.setObuf v).sw = s.sw := rfl
@[simp] theorem State.setObuf_queue (v : List Byte) : (s.setObuf v).queue = s.queue := rfl
@[simp] theorem State.setObuf_framer (v : List Byte) : (s.setObuf v).framer = s.framer := rfl
@[simp] theorem State.setObuf_obuf (v : List Byte) : (s.setObuf v).obuf = v := rfl
@[simp] theorem State.setObuf_now (v : List Byte) : (s.setObuf v).now = s.now := rfl
@[simp] theorem State.setObuf_out (v : List Byte) : (s.setObuf v).out = s.out := rfl
@[simp] theorem State.setObuf_draws (v : List Byte) : (s.setObuf v).draws = s.draws := rfl
@[simp] theorem State.setObuf_rx (v : List Byte) : (s.setObuf v).rx = s.rx := rfl
@[simp] theorem State.setObuf_ticks (v : List Byte) : (s.setObuf v).ticks = s.ticks := rfl

@[simp] theorem State.setNow_cfg (v : Word) : (s.setNow v).cfg = s.cfg := rfl
@[simp] theorem State.setNow_axes (v : Word) : (s.setNow v).axes = s.axes := rfl
@[simp] theorem State.setNow_cal (v : Word) : (s.setNow v).cal = s.cal := rfl
@[simp] theorem State.setNow_corrEn (v : Word) : (s.setNow v).corrEn = s.corrEn := rfl
@[simp] theorem State.setNow_mode (v : Word) : (s.setNow v).mode = s.mode := rfl
@[simp] theorem State.setNow_sweep (v : Word) : (s.setNow v).sweep = s.sweep := rfl
@[simp] theorem State.setNow_draw (v : Word) : (s.setNow v).draw = s.draw := rfl
@[simp] theorem State.setNow_motor (v : Word) : (s.setNow v).motor = s.motor := rfl
@[simp] theorem State.setNow_enc (v : Word) : (s.setNow v).enc = s.enc := rfl
@[simp] theorem State.setNow_sw (v : Word) : (s.setNow v).sw = s.sw := rfl
@[simp] theorem State.setNow_queue (v : Word) : (s.setNow v).queue = s.queue := rfl
@[simp] theorem State.setNow_framer (v : Word) : (s.setNow v).framer = s.framer := rfl
@[simp] theorem State.setNow_obuf (v : Word) : (s.setNow v).obuf = s.obuf := rfl
@[simp] theorem State.setNow_now (v : Word) : (s.setNow v).now = v := rfl
@[simp] theorem State.setNow_out (v : Word) : (s.setNow v).out = s.out := rfl
@[simp] theorem State.setNow_draws (v : Word) : (s.setNow v).draws = s.draws := rfl
@[simp] theorem State.setNow_rx (v : Word) : (s.setNow v).rx = s.rx := rfl
@[simp] theorem State.setNow_ticks (v : Word) : (s.setNow v).ticks = s.ticks := rfl

@[simp] theorem State.onOut_cfg (f : TickOut → TickOut) : (s.onOut f).cfg = s.cfg := rfl
@[simp] theorem State.onOut_axes (f : TickOut → TickOut) : (s.onOut f).axes = s.axes := rfl
@[simp] theorem State.onOut_cal (f : TickOut → TickOut) : (s.onOut f).cal = s.cal := rfl
@[simp] theorem State.onOut_corrEn (f : TickOut → TickOut) : (s.onOut f).corrEn = s.corrEn := rfl
@[simp] theorem State.onOut_mode (f : TickOut → TickOut) : (s.onOut f).mode = s.mode := rfl
@[simp] theorem State.onOut_sweep (f : TickOut → TickOut) : (s.onOut f).sweep = s.sweep := rfl
@[simp] theorem State.onOut_draw (f : TickOut → TickOut) : (s.onOut f).draw = s.draw := rfl
@[simp] theorem State.onOut_motor (f : TickOut → TickOut) : (s.onOut f).motor = s.motor := rfl
@[simp] theorem State.onOut_enc (f : TickOut → TickOut) : (s.onOut f).enc = s.enc := rfl
@[simp] theorem State.onOut_sw (f : TickOut → TickOut) : (s.onOut f).sw = s.sw := rfl
@[simp] theorem State.onOut_queue (f : TickOut → TickOut) : (s.onOut f).queue = s.queue := rfl
@[simp] theorem State.onOut_framer (f : TickOut → TickOut) : (s.onOut f).framer = s.framer := rfl
@[simp] theorem State.onOut_obuf (f : TickOut → TickOut) : (s.onOut f).obuf = s.obuf := rfl
@[simp] theorem State.onOut_now (f : TickOut → TickOut) : (s.onOut f).now = s.now := rfl
@[simp] theorem State.onOut_out (f : TickOut → TickOut) : (s.onOut f).out = f s.out := rfl
@[simp] theorem State.onOut_draws (f : TickOut → TickOut) : (s.onOut f).draws = s.draws := rfl
@[simp] theorem State.onOut_rx (f : TickOut → TickOut) : (s.onOut f).rx = s.rx := rfl
@[simp] theorem State.onOut_ticks (f : TickOut → TickOut) : (s.onOut f).ticks = s.ticks := rfl

@[simp] theorem State.setDraws_cfg (v : Nat) : (s.setDraws v).cfg = s.cfg := rfl
@[simp] theorem State.setDraws_axes (v : Nat) : (s.setDraws v).axes = s.axes := rfl
@[simp] theorem State.setDraws_cal (v : Nat) : (s.setDraws v).cal = s.cal := rfl
@[simp] theorem State.setDraws_corrEn (v : Nat) : (s.setDraws v).corrEn = s.corrEn := rfl
@[simp] theorem State.setDraws_mode (v : Nat) : (s.setDraws v).mode = s.mode := rfl
@[simp] theorem State.setDraws_sweep (v : Nat) : (s.setDraws v).sweep = s.sweep := rfl
@[simp] theorem State.setDraws_draw (v : Nat) : (s.setDraws v).draw = s.draw := rfl
@[simp] theorem State.setDraws_motor (v : Nat) : (s.setDraws v).motor = s.motor := rfl
@[simp] theorem State.setDraws_enc (v : Nat) : (s.setDraws v).enc = s.enc := rfl
@[simp] theorem State.setDraws_sw (v : Nat) : (s.setDraws v).sw = s.sw := rfl
@[simp] theorem State.setDraws_queue (v : Nat) : (s.setDraws v).queue = s.queue := rfl
@[simp] theorem State.setDraws_framer (v : Nat) : (s.setDraws v).framer = s.framer := rfl
@[simp] theorem State.setDraws_obuf (v : Nat) : (s.setDraws v).obuf = s.obuf := rfl
@[simp] theorem State.setDraws_now (v : Nat) : (s.setDraws v).now = s.now := rfl
@[simp] theorem State.setDraws_out (v : Nat) : (s.setDraws v).out = s.out := rfl
@[simp] theorem State.setDraws_draws (v : Nat) : (s.setDraws v).draws = v := rfl
@[simp] theorem State.setDraws_rx (v : Nat) : (s.setDraws v).rx = s.rx := rfl
@[simp] theorem State.setDraws_ticks (v : Nat) : (s.setDraws v).ticks = s.ticks := rfl

@[simp] theorem State.setRx_cfg (v : List Byte) : (s.setRx v).cfg = s.cfg := rfl
@[simp] theorem State.setRx_axes (v : List Byte) : (s.setRx v).axes = s.axes := rfl
@[simp] theorem State.setRx_cal (v : List Byte) : (s.setRx v).cal = s.cal := rfl
@[simp] theorem State.setRx_corrEn (v : List Byte) : (s.setRx v).corrEn = s.corrEn := rfl
@[simp] theorem State.setRx_mode (v : List Byte) : (s.setRx v).mode = s.mode := rfl
@[simp] theorem State.setRx_sweep (v : List Byte) : (s.setRx v).sweep = s.sweep := rfl
@[simp] theorem State.setRx_draw (v : List Byte) : (s.setRx v).draw = s.draw := rfl
@[simp] theorem State.setRx_motor (v : List Byte) : (s.setRx v).motor = s.motor := rfl
@[simp] theorem State.setRx_enc (v : List Byte) : (s.setRx v).enc = s.enc := rfl
@[simp] theorem State.setRx_sw (v : List Byte) : (s.setRx v).sw = s.sw := rfl
@[simp] theorem State.setRx_queue (v : List Byte) : (s.setRx v).queue = s.queue := rfl
@[simp] theorem State.setRx_framer (v : List Byte) : (s.setRx v).framer = s.framer := rfl
@[simp] theorem State.setRx_obuf (v : List Byte) : (s.setRx v).obuf = s.obuf := rfl
@[simp] theorem State.setRx_now (v : List Byte) : (s.setRx v).now = s.now := rfl
@[simp] theorem State.setRx_out (v : List Byte) : (s.setRx v).out = s.out := rfl
@[simp] theorem State.setRx_draws (v : List Byte) : (s.setRx v).draws = s.draws := rfl
@[simp] theorem State.setRx_rx (v : List Byte) : (s.setRx v).rx = v := rfl
@[simp] theorem State.setRx_ticks (v : List Byte) : (s.setRx v).ticks = s.ticks := rfl

@[simp] theorem State.setTicks_cfg (v : List TickIn) : (s.setTicks v).cfg = s.cfg := rfl
@[simp] theorem State.setTicks_axes (v : List TickIn) : (s.setTicks v).axes = s.axes := rfl
@[simp] theorem State.setTicks_cal (v : List TickIn) : (s.setTicks v).cal = s.cal := rfl
@[simp] theorem State.setTicks_corrEn (v : List TickIn) : (s.setTicks v).corrEn = s.corrEn := rfl
@[simp] theorem State.setTicks_mode (v : List TickIn) : (s.setTicks v).mode = s.mode := rfl
@[simp] theorem State.setTicks_sweep (v : List TickIn) : (s.setTicks v).sweep = s.sweep := rfl
@[simp] theorem State.setTicks_draw (v : List TickIn) : (s.setTicks v).draw = s.draw := rfl
@[simp] theorem State.setTicks_motor (v : List TickIn) : (s.setTicks v).motor = s.motor := rfl
@[simp] theorem State.setTicks_enc (v : List TickIn) : (s.setTicks v).enc = s.enc := rfl
@[simp] theorem State.setTicks_sw (v : List TickIn) : (s.setTicks v).sw = s.sw := rfl
@[simp] theorem State.setTicks_queue (v : List TickIn) : (s.setTicks v).queue = s.queue := rfl
@[simp] theorem State.setTicks_framer (v : List TickIn) : (s.setTicks v).framer = s.framer := rfl
@[simp] theorem State.setTicks_obuf (v : List TickIn) : (s.setTicks v).obuf = s.obuf := rfl
@[simp] theorem State.setTicks_now (v : List TickIn) : (s.setTicks v).now = s.now := rfl
@[simp] theorem State.setTicks_out (v : List TickIn) : (s.setTicks v).out = s.out := rfl
@[simp] theorem State.setTicks_draws (v : List TickIn) : (s.setTicks v).draws = s.draws := rfl
@[simp] theorem State.setTicks_rx (v : List TickIn) : (s.setTicks v).rx = s.rx := rfl
@[simp] theorem State.setTicks_ticks (v : List TickIn) : (s.setTicks v).ticks = v := rfl

end

section
variable {α : Type} (p : PerAxis α) (v : α)

@[simp] theorem PerAxis.get_amp : p.get .amp = p.amp := rfl
@[simp] theorem PerAxis.get_ang : p.get .ang = p.ang := rfl
@[simp] theorem PerAxis.set_amp : p.set .amp v = ⟨v, p.ang⟩ := rfl
@[simp] theorem PerAxis.set_ang : p.set .ang v = ⟨p.amp, v⟩ := rfl

@[simp] theorem PerAxis.get_set_self (a : Axis) : (p.set a v).get a = v := by cases a <;> rfl

theorem PerAxis.get_set_ne (a b : Axis) (h : b ≠ a) : (p.set a v).get b = p.get b := by
  cases a <;> cases b <;> first | rfl | exact absurd rfl h

end

section
variable {α : Type} (p : PerSwitch α)

@[simp] theorem PerSwitch.get_az : p.get .az = p.az := rfl
@[simp] theorem PerSwitch.get_ax : p.get .ax = p.ax := rfl
@[simp] theorem PerSwitch.get_gz : p.get .gz = p.gz := rfl
@[simp] theorem PerSwitch.get_gx : p.get .gx = p.gx := rfl

end

@[simp] theorem andThen_next (s : State) (f : State → Result) : andThen (.next s) f = f s := rfl
@[simp] theorem andThen_fault (e : Fault) (f : State → Result) : andThen (.fault e) f = .fault e := rfl
@[simp] theorem andThen_refused (e : Refusal) (f : State → Result) : andThen (.refused e) f = .refused e := rfl

/-- A sequence answers a next state exactly when both parts do. -/
theorem andThen_eq_next {r : Result} {f : State → Result} {t : State} :
    andThen r f = .next t ↔ ∃ u, r = .next u ∧ f u = .next t := by
  cases r <;> simp

end Sys2Proof.Machine
end

