-- ==== Sys2Proof/Laws/Axis.lean ====
section
/-! SUPPORT. What the stepper, sampling and corrector operations can do, each said once. -/

namespace Sys2Proof.Machine

/-! ### Speed -/

/-- The clamp of R131 is a speed in range whatever is asked for. -/
theorem clampSpeed_range {c : Config} (h : 1 ≤ c.maxSpeed) (v : Word) :
    1 ≤ (clamp v.toInt 1 c.maxSpeed).toNat ∧ (clamp v.toInt 1 c.maxSpeed).toNat ≤ c.maxSpeed := by
  unfold clamp
  omega

/-- setSpeed leaves an axis's speed and interval in range (R33, R34). -/
theorem AxisRegs.setSpeed_inRange {c : Config} (h1 : 1 ≤ c.maxSpeed) (h2 : c.maxSpeed ≤ usPerS) (v : Word)
    (r : AxisRegs) : (r.setSpeed c v).InRange c := by
  obtain ⟨ha, hb⟩ := clampSpeed_range h1 v
  have hus : usPerS = 1000000 := rfl
  have hspd : (clamp v.toInt 1 c.maxSpeed).toNat < 2 ^ 32 := by omega
  have hdiv : usPerS / (clamp v.toInt 1 c.maxSpeed).toNat ≤ usPerS := Nat.div_le_self _ _
  simp only [AxisRegs.InRange, AxisRegs.setSpeed, BitVec.toNat_ofNat]
  rw [Nat.mod_eq_of_lt hspd, Nat.mod_eq_of_lt (by omega)]
  exact ⟨ha, hb, rfl⟩

@[simp] theorem AxisRegs.setSpeed_pos (c : Config) (v : Word) (r : AxisRegs) : (r.setSpeed c v).pos = r.pos := rfl
@[simp] theorem AxisRegs.setSpeed_tgt (c : Config) (v : Word) (r : AxisRegs) : (r.setSpeed c v).tgt = r.tgt := rfl
@[simp] theorem AxisRegs.setSpeed_dir (c : Config) (v : Word) (r : AxisRegs) : (r.setSpeed c v).dir = r.dir := rfl
@[simp] theorem AxisRegs.setSpeed_last (c : Config) (v : Word) (r : AxisRegs) : (r.setSpeed c v).last = r.last := rfl

/-! ### Pulses -/

/-- Everything a pulse changes: the axis's registers, the pulse list and the two lines. -/
theorem pulse_eq (a : Axis) (d : Bool) (s : State) :
    pulse a d s =
      { s with
        axes := s.axes.set a ((s.axes.get a).pulsed s.now d)
        out := { s.out with
          pulses := s.out.pulses ++ [⟨a, d, pulseLine s.cfg d⟩]
          dirOut := s.out.dirOut.set a d
          stepOut := s.out.stepOut.set a false } } := rfl

@[simp] theorem AxisRegs.pulsed_tgt (now : Word) (d : Bool) (r : AxisRegs) : (r.pulsed now d).tgt = r.tgt := rfl
@[simp] theorem AxisRegs.pulsed_spd (now : Word) (d : Bool) (r : AxisRegs) : (r.pulsed now d).spd = r.spd := rfl
@[simp] theorem AxisRegs.pulsed_ivl (now : Word) (d : Bool) (r : AxisRegs) : (r.pulsed now d).ivl = r.ivl := rfl
@[simp] theorem AxisRegs.pulsed_dir (now : Word) (d : Bool) (r : AxisRegs) : (r.pulsed now d).dir = d := rfl
@[simp] theorem AxisRegs.pulsed_last (now : Word) (d : Bool) (r : AxisRegs) : (r.pulsed now d).last = now := rfl

/-- A pulse keeps an axis's speed and interval in range. -/
theorem AxisRegs.pulsed_inRange {c : Config} {r : AxisRegs} (h : r.InRange c) (now : Word) (d : Bool) :
    (r.pulsed now d).InRange c := h

/-- stepTowardTarget does nothing, or is one pulse. -/
theorem stepTowardTarget_cases (a : Axis) (s : State) :
    ((reached a s ∨ ¬ ready a s) ∧ stepTowardTarget a s = s) ∨
    (¬ reached a s ∧ ready a s ∧
      stepTowardTarget a s = pulse a ((s.axes.get a).pos.slt (s.axes.get a).tgt) s) := by
  unfold stepTowardTarget
  split_ifs with h1 h2
  · exact .inl ⟨.inl h1, rfl⟩
  · exact .inr ⟨h1, h2, rfl⟩
  · exact .inl ⟨.inr h2, rfl⟩

/-- singleStepAtSpeed is one pulse where the axis is ready, and nothing where it is not. -/
theorem singleStepAtSpeed_cases (a : Axis) (d : Bool) (s : State) :
    (ready a s ∧ singleStepAtSpeed a d s = pulse a d s) ∨ (¬ ready a s ∧ singleStepAtSpeed a d s = s) := by
  unfold singleStepAtSpeed
  split_ifs with h
  · exact .inl ⟨h, rfl⟩
  · exact .inr ⟨h, rfl⟩

/-! ### Sampling -/

/-- Everything a sampling phase changes: ENC and the switch registers. -/
theorem sample_eq (t : TickIn) (s : State) :
    sample t s =
      { s with
        enc := s.enc + t.encDelta
        sw :=
          { az := s.sw.az.poll s.cfg t.swRaw.az
            ax := s.sw.ax.poll s.cfg t.swRaw.ax
            gz := s.sw.gz.poll s.cfg t.swRaw.gz
            gx := s.sw.gx.poll s.cfg t.swRaw.gx } } := rfl

/-- A poll leaves the counter in range (R50). -/
theorem SwitchRegs.poll_le (c : Config) (raw : Bool) (r : SwitchRegs) : (r.poll c raw).cnt ≤ c.debounceK := by
  simp only [SwitchRegs.poll]
  split_ifs <;> omega

/-- A pressed sample counts up to DEBOUNCE_K; any other clears the counter. -/
theorem SwitchRegs.poll_cnt (c : Config) (raw : Bool) (r : SwitchRegs) :
    (r.poll c raw).cnt = if raw = c.swActiveLevel then min (r.cnt + 1) c.debounceK else 0 := rfl

@[simp] theorem SwitchRegs.poll_lvl (c : Config) (raw : Bool) (r : SwitchRegs) : (r.poll c raw).lvl = raw := rfl

/-! ### Mapping and correction -/

/-- With both ranges starting at 0, the mapping is one exact quotient, wrapped (R164, R165). -/
theorem linearMap_zero (x inHi outHi : Word) :
    linearMap x 0#32 inHi 0#32 outHi =
      if inHi = 0#32 then 0#32 else wrap32 ((x.toInt * outHi.toInt).tdiv inHi.toInt) := by
  simp [linearMap]

/-- arrivalCheck changes nothing, or sets CORR. -/
theorem arrivalCheck_cases (s : State) :
    (arrivalCheck s = (s, .complete) ∧ (corrActive s → within (encoderToAnglePos s.enc s) s.axes.ang.pos s)) ∨
    (corrActive s ∧ ¬ within (encoderToAnglePos s.enc s) s.axes.ang.pos s ∧
      arrivalCheck s = ({ s with draw := { s.draw with corr := true } }, .goOn)) := by
  unfold arrivalCheck
  split_ifs with h1 h2
  · exact .inl ⟨rfl, fun _ => h2⟩
  · exact .inr ⟨h1, h2, rfl⟩
  · exact .inl ⟨rfl, fun h => absurd h h1⟩

/-- correctionStep abandons, converges or steps. -/
theorem correctionStep_cases (s : State) :
    (¬ corrActive s ∧ correctionStep s = ({ s with draw := { s.draw with corr := false } }, .complete)) ∨
    (corrActive s ∧ s.enc = anglePosToEncoder s.axes.ang.tgt s ∧ correctionStep s = (converge s, .complete)) ∨
    (corrActive s ∧ s.enc ≠ anglePosToEncoder s.axes.ang.tgt s ∧
      correctionStep s =
        (singleStepAtSpeed .ang (s.enc.slt (anglePosToEncoder s.axes.ang.tgt s)) s, .goOn)) := by
  unfold correctionStep
  split_ifs with h1 h2
  · exact .inr (.inl ⟨h1, h2, rfl⟩)
  · exact .inr (.inr ⟨h1, h2, rfl⟩)
  · exact .inl ⟨h1, rfl⟩

/-- Everything a convergence changes: POS[ANG] and CORR (R185). -/
theorem converge_eq (s : State) :
    converge s =
      { s with
        axes := ⟨s.axes.amp, { s.axes.ang with pos := encoderToAnglePos s.enc s }⟩
        draw := { s.draw with corr := false } } := rfl

end Sys2Proof.Machine
end

