-- ==== Sys2Proof/Laws/Encoding.lean ====
section
/-! SUPPORT. The operand forms and the encoding tables: bytes to words and back, and the shape of what is encoded. -/

namespace Sys2Proof

namespace Machine

@[simp] theorem le32_length (w : Word) : (le32 w).length = 4 := rfl

/-- The word of the four bytes of a word is that word. -/
theorem ofLE32_le32 (w : Word) :
    ofLE32 (w.extractLsb' 0 8) (w.extractLsb' 8 8) (w.extractLsb' 16 8) (w.extractLsb' 24 8) = w := by
  simp only [ofLE32]
  ext i hi
  simp only [← BitVec.getLsbD_eq_getElem, BitVec.getLsbD_append, BitVec.getLsbD_extractLsb']
  grind

/-- The four bytes of the word of four bytes are those bytes. -/
theorem le32_ofLE32 (b0 b1 b2 b3 : Byte) : le32 (ofLE32 b0 b1 b2 b3) = [b0, b1, b2, b3] := by
  simp only [le32, ofLE32, List.cons.injEq, and_true]
  refine ⟨?_, ?_, ?_, ?_⟩ <;> ext i hi <;>
    simp [BitVec.getElem_extractLsb'] <;> grind

theorem payloadWords_le32_append (w : Word) (p : List Byte) :
    payloadWords (le32 w ++ p) = w :: payloadWords p := by
  show ofLE32 _ _ _ _ :: payloadWords p = _
  rw [ofLE32_le32]

/-- The fields of a payload written from words, followed by other bytes. -/
theorem payloadWords_flatMap (ws : List Word) (p : List Byte) :
    payloadWords (ws.flatMap le32 ++ p) = ws ++ payloadWords p := by
  induction ws with
  | nil => rfl
  | cons w ws ih => rw [List.flatMap_cons, List.append_assoc, payloadWords_le32_append, ih, List.cons_append]

/-- Fewer than four bytes hold no field. -/
theorem payloadWords_short {p : List Byte} (h : p.length < 4) : payloadWords p = [] := by
  match p with
  | [] | [_] | [_, _] | [_, _, _] => rfl
  | _ :: _ :: _ :: _ :: p => simp at h; omega

/-- A payload is the bytes of its fields and at most three bytes more. -/
theorem payload_eq_words (p : List Byte) :
    ∃ rest, rest.length < 4 ∧ p = (payloadWords p).flatMap le32 ++ rest := by
  induction p using payloadWords.induct with
  | case1 b0 b1 b2 b3 p ih =>
    obtain ⟨rest, hlt, hp⟩ := ih
    refine ⟨rest, hlt, ?_⟩
    rw [payloadWords, List.flatMap_cons, le32_ofLE32, List.append_assoc, ← hp]
    rfl
  | case2 p h =>
    refine ⟨p, ?_, ?_⟩
    · match p, h with
      | [], _ | [_], _ | [_, _], _ | [_, _, _], _ => simp
      | b0 :: b1 :: b2 :: b3 :: p, h => exact absurd rfl (h b0 b1 b2 b3 p)
    · rw [payloadWords]
      · rfl
      · exact h

theorem length_flatMap_le32 (ws : List Word) : (ws.flatMap le32).length = 4 * ws.length := by
  induction ws with
  | nil => rfl
  | cons w ws ih => simp [List.flatMap_cons, ih]; omega

end Machine

@[simp] theorem decodeI32_cons (tag : Word) (mk : Word → Instr) (a : Word) (l : List Word) :
    decodeI32 tag mk (a :: l) = .ok (mk a) := rfl

@[simp] theorem decodeI32_nil (tag : Word) (mk : Word → Instr) :
    decodeI32 tag mk [] = .error (.short (some tag)) := rfl

/-- Six fields or more make the command; fewer are short. -/
theorem decodeSix_cases (tag : Word) (mk : Word → Word → Word → Word → Word → Word → Instr) (l : List Word) :
    (∃ a b c d e f rest, l = a :: b :: c :: d :: e :: f :: rest ∧ decodeSix tag mk l = .ok (mk a b c d e f)) ∨
    (l.length < 6 ∧ decodeSix tag mk l = .error (.short (some tag))) := by
  match l with
  | [] | [_] | [_, _] | [_, _, _] | [_, _, _, _] | [_, _, _, _, _] => exact .inr ⟨by simp, rfl⟩
  | a :: b :: c :: d :: e :: f :: rest => exact .inl ⟨a, b, c, d, e, f, rest, rfl, rfl⟩

theorem decodeSix_short {tag : Word} {mk : Word → Word → Word → Word → Word → Word → Instr} {l : List Word}
    (h : l.length < 6) : decodeSix tag mk l = .error (.short (some tag)) := by
  rcases decodeSix_cases tag mk l with ⟨a, b, c, d, e, f, rest, rfl, -⟩ | ⟨-, h'⟩
  · simp at h; omega
  · exact h'

/-- A frame is its payload and six bytes. -/
theorem frame_length (c : Config) (p : List Byte) : (frame c p).length = p.length + 6 := by
  simp [frame]

end Sys2Proof
end

