-- ==== Sys2Proof/Laws/F32.lean ====
section
/-! SUPPORT. A binary32 read as a sign and magnitude bits: what packing, classifying and counting units say of them. The
magnitude bits of `x` are `x.toNat % 2 ^ 31`. -/

namespace Sys2Proof.Machine

/-- A rounding never exceeds the magnitude of the infinities. -/
theorem f32RoundMag_le (n d : Nat) : f32RoundMag n d ≤ f32InfMag := min_le_right _ _

/-- A rounding has magnitude bits only. -/
theorem f32RoundMag_lt (n d : Nat) : f32RoundMag n d < 2 ^ 31 :=
  lt_of_le_of_lt (f32RoundMag_le n d) (by decide)

/-- Packing gives back its two parts. -/
theorem f32Pack_parts (neg : Bool) {mag : Nat} (h : mag < 2 ^ 31) :
    (f32Pack neg mag).toNat % 2 ^ 31 = mag ∧ (f32Pack neg mag).msb = neg := by
  rw [BitVec.msb_eq_decide]
  cases neg <;> simp only [f32Pack, BitVec.toNat_ofNat, decide_eq_true_eq, decide_eq_false_iff_not, if_true,
    Bool.false_eq_true, if_false] <;> omega

/-- The NaN an operation produces is a NaN whatever its free bits are. -/
theorem f32NaN_mag : 0x7F800000 < f32NaN.toNat % 2 ^ 31 := by
  have h : f32NaN &&& 0x7FC00000#32 = 0x7FC00000#32 := by
    ext i
    simp only [f32NaN, BitVec.getElem_and, BitVec.getElem_or]
    cases (0x7FC00000#32)[i] <;> simp
  have k : (f32NaN.toNat % 2 ^ 31) &&& 0x7FC00000 = 0x7FC00000 := by
    have h' := congrArg (fun x : Word => x.toNat % 2 ^ 31) h
    simp only [BitVec.toNat_and, Nat.and_mod_two_pow] at h'
    exact h'
  have := Nat.and_le_left (n := f32NaN.toNat % 2 ^ 31) (m := 0x7FC00000)
  omega

/-- The exponent field is the upper part of the magnitude bits. -/
theorem f32Exp_eq (x : Word) : f32Exp x = x.toNat % 2 ^ 31 / 2 ^ 23 := by unfold f32Exp; omega

/-- The fraction field is the lower part of the magnitude bits. -/
theorem f32Frac_eq (x : Word) : f32Frac x = x.toNat % 2 ^ 31 % 2 ^ 23 := by unfold f32Frac; omega

/-- A finite binary32 lies below the infinities. -/
theorem f32Finite_iff (x : Word) : f32Finite x ↔ x.toNat % 2 ^ 31 < 0x7F800000 := by
  rw [f32Finite, f32Exp_eq]; omega

/-- An infinity has the magnitude bits of one. -/
theorem f32IsInf_iff (x : Word) : f32IsInf x ↔ x.toNat % 2 ^ 31 = 0x7F800000 := by
  rw [f32IsInf, f32Exp_eq, f32Frac_eq]; omega

/-- A NaN lies above the infinities. -/
theorem f32IsNaN_iff (x : Word) : f32IsNaN x ↔ 0x7F800000 < x.toNat % 2 ^ 31 := by
  rw [f32IsNaN, f32Exp_eq, f32Frac_eq]; omega

/-- Only the two zeros have no units. -/
theorem f32Units_eq_zero (x : Word) : f32Units x = 0 ↔ x.toNat % 2 ^ 31 = 0 := by
  rw [f32Units, f32Exp_eq, f32Frac_eq]
  split_ifs with h
  · omega
  · have : 0 < (x.toNat % 2 ^ 31 % 2 ^ 23 + 2 ^ 23) * 2 ^ (x.toNat % 2 ^ 31 / 2 ^ 23 - 1) := by positivity
    omega

end Sys2Proof.Machine
end

