-- ==== Sys2Proof/Laws/Memory.lean ====
section
/-! SUPPORT. The byte store: what a read gives after a write, and that every write keeps the canonical form. -/

namespace Sys2Proof.Machine

@[simp] theorem Memory.read_nil (a : Nat) : Memory.read [] a = Memory.blank := rfl

theorem Memory.read_cons (k : Nat) (v : Byte) (m : Memory) (a : Nat) :
    Memory.read ((k, v) :: m) a = if k = a then v else Memory.read m a := rfl

@[simp] theorem Memory.wf_nil : Memory.wf [] = true := rfl

theorem Memory.wf_cons {k : Nat} {v : Byte} {m : Memory} :
    Memory.wf ((k, v) :: m) = true ↔ v ≠ Memory.blank ∧ (∀ c ∈ m, k < c.1) ∧ Memory.wf m = true := by
  simp [Memory.wf, and_assoc]

/-- An offset below every listed one is unlisted. -/
theorem Memory.read_below {m : Memory} {a : Nat} (h : ∀ c ∈ m, a < c.1) : m.read a = Memory.blank := by
  induction m with
  | nil => rfl
  | cons c m ih =>
    obtain ⟨k, v⟩ := c
    have hk : a < k := h (k, v) (by simp)
    rw [Memory.read_cons, if_neg (by omega)]
    exact ih fun c hc => h c (by simp [hc])

/-- Every cell of a store after a write was there before, or is the one written. -/
theorem Memory.mem_write {m : Memory} {a : Nat} {b : Byte} {c : Host.Cell} (h : c ∈ m.write a b) :
    c ∈ m ∨ c = (a, b) := by
  induction m with
  | nil =>
    rw [Memory.write] at h
    split at h <;> simp_all
  | cons d m ih =>
    obtain ⟨k, v⟩ := d
    rw [Memory.write] at h
    split_ifs at h
    all_goals simp only [List.mem_cons] at h ⊢
    all_goals tauto

/-- A write keeps the canonical form. -/
theorem Memory.write_wf {m : Memory} (h : m.wf = true) (a : Nat) (b : Byte) : (m.write a b).wf = true := by
  induction m with
  | nil =>
    rw [Memory.write]
    split_ifs with hb
    · rfl
    · exact Memory.wf_cons.2 ⟨hb, by simp, rfl⟩
  | cons d m ih =>
    obtain ⟨k, v⟩ := d
    obtain ⟨hv, hk, hm⟩ := Memory.wf_cons.1 h
    rw [Memory.write]
    split_ifs with h1 h2 h3 h4
    · exact h
    · refine Memory.wf_cons.2 ⟨h2, ?_, h⟩
      rintro c (_ | ⟨_, hc⟩)
      · exact h1
      · exact h1.trans (hk c hc)
    · exact hm
    · exact Memory.wf_cons.2 ⟨h4, by rw [h3]; exact hk, hm⟩
    · refine Memory.wf_cons.2 ⟨hv, fun c hc => ?_, ih hm⟩
      rcases Memory.mem_write hc with hc | rfl
      · exact hk c hc
      · show k < a
        omega

/-- Reading an offset just written gives the byte written. -/
theorem Memory.read_write_same {m : Memory} (h : m.wf = true) (a : Nat) (b : Byte) :
    (m.write a b).read a = b := by
  induction m with
  | nil =>
    rw [Memory.write]
    split_ifs with hb
    · exact hb.symm
    · simp [Memory.read_cons]
  | cons d m ih =>
    obtain ⟨k, v⟩ := d
    obtain ⟨-, hk, hm⟩ := Memory.wf_cons.1 h
    rw [Memory.write]
    split_ifs with h1 h2 h3 h4
    · rw [Memory.read_cons, if_neg (by omega), Memory.read_below fun c hc => h1.trans (hk c hc), h2]
    · simp [Memory.read_cons]
    · rw [Memory.read_below (by rw [h3]; exact hk), h4]
    · simp [Memory.read_cons]
    · rw [Memory.read_cons, if_neg (by omega), ih hm]

/-- A write leaves every other offset alone. -/
theorem Memory.read_write_ne (m : Memory) {a x : Nat} (b : Byte) (hx : x ≠ a) :
    (m.write a b).read x = m.read x := by
  induction m with
  | nil =>
    rw [Memory.write]
    split_ifs
    · rfl
    · rw [Memory.read_cons, if_neg (Ne.symm hx)]
  | cons d m ih =>
    obtain ⟨k, v⟩ := d
    rw [Memory.write]
    split_ifs with h1 h2 h3 h4
    · rfl
    · rw [Memory.read_cons a b, if_neg (Ne.symm hx)]
    · rw [Memory.read_cons k v, if_neg (by omega)]
    · rw [Memory.read_cons a b, Memory.read_cons k v, if_neg (Ne.symm hx), if_neg (by omega)]
    · rw [Memory.read_cons, Memory.read_cons, ih]

/-- Writing successive bytes keeps the canonical form. -/
theorem Memory.writeFrom_wf (bs : List Byte) :
    ∀ {m : Memory} (a : Nat), m.wf = true → (m.writeFrom a bs).wf = true := by
  induction bs with
  | nil => exact fun _ h => h
  | cons b bs ih => exact fun a h => ih (a + 1) (Memory.write_wf h a b)

/-- Writing successive bytes from a on leaves the offsets below a alone. -/
theorem Memory.read_writeFrom_below (bs : List Byte) :
    ∀ (m : Memory) {a x : Nat}, x < a → (m.writeFrom a bs).read x = m.read x := by
  induction bs with
  | nil => exact fun _ _ _ _ => rfl
  | cons b bs ih =>
    intro m a x h
    rw [Memory.writeFrom, ih _ (by omega), Memory.read_write_ne _ _ (by omega)]

/-- Reading back successive bytes just written gives them. -/
theorem Memory.map_read_writeFrom (bs : List Byte) :
    ∀ {m : Memory} (a : Nat), m.wf = true →
      (List.range bs.length).map (fun k => (m.writeFrom a bs).read (a + k)) = bs := by
  induction bs with
  | nil => exact fun _ _ => rfl
  | cons b bs ih =>
    intro m a h
    have hrest := ih (a + 1) (Memory.write_wf h a b)
    rw [List.length_cons, List.range_succ_eq_map, List.map_cons, List.map_map]
    have hfun : ((fun k => (m.writeFrom a (b :: bs)).read (a + k)) ∘ Nat.succ) =
        fun k => ((m.write a b).writeFrom (a + 1) bs).read (a + 1 + k) := by
      funext k
      simp only [Function.comp, Memory.writeFrom]
      congr 1
      omega
    rw [hfun, hrest, Memory.writeFrom, Memory.read_writeFrom_below _ _ (by omega), Nat.add_zero a,
      Memory.read_write_same h]

/-- PBUF has the canonical form after reset, and holds nothing. -/
theorem Memory.reset_wf (c : Config) : (State.resetWith c).framer.pbuf.wf = true := rfl

end Sys2Proof.Machine
end

