-- ==== Sys2Proof/Laws/Ops.lean ====
section
/-! SUPPORT. What the shared operations of Machine/Ops.lean, Entry.lean and Queue.lean can do, each said once. -/

namespace Sys2Proof.Machine

/-! ### Replies -/

/-- A reply that goes out: the room, and everything it changes. -/
theorem reply_eq_next {bytes : List Byte} {tag : Option Word} {cause : Cause} {s t : State} :
    reply bytes tag cause s = .next t ↔
      s.obuf.length + bytes.length ≤ s.cfg.outBufLen ∧
      t = { s with obuf := s.obuf ++ bytes, out := { s.out with diag := s.out.diag ++ [⟨tag, cause⟩] } } := by
  unfold reply
  split_ifs with h
  · simp only [Host.Outcome.next.injEq, h, true_and]
    exact eq_comm
  · simp [h]

/-- Where OBUF has the room, the reply goes out. -/
theorem reply_of_room {bytes : List Byte} {tag : Option Word} {cause : Cause} {s : State}
    (h : s.obuf.length + bytes.length ≤ s.cfg.outBufLen) :
    reply bytes tag cause s =
      .next { s with obuf := s.obuf ++ bytes, out := { s.out with diag := s.out.diag ++ [⟨tag, cause⟩] } } :=
  reply_eq_next.2 ⟨h, rfl⟩

/-- A raise is a reply of FAIL, and nothing else (R272). -/
theorem raise_eq_next {tag : Option Word} {cause : Cause} {s t : State} :
    raise tag cause s = .next t ↔
      s.obuf.length + 5 ≤ s.cfg.outBufLen ∧
      t = { s with obuf := s.obuf ++ failBytes, out := { s.out with diag := s.out.diag ++ [⟨tag, cause⟩] } } :=
  reply_eq_next

@[simp] theorem okBytes_length : okBytes.length = 3 := rfl

@[simp] theorem failBytes_length : failBytes.length = 5 := rfl

@[simp] theorem statusWords_length (s : State) : (statusWords s).length = 23 := rfl

@[simp] theorem statusDump_length (s : State) : (statusDump s).length = 92 := rfl

/-! ### ClearFrame -/

theorem clearFrame_eq (s : State) :
    clearFrame s =
      { s with framer := { s.framer with plen := 0, ovf := false, erun := 0, srun := 0, st := .hunt } } := rfl

@[simp] theorem clearFrame_framer (s : State) :
    (clearFrame s).framer = { s.framer with plen := 0, ovf := false, erun := 0, srun := 0, st := .hunt } := rfl
@[simp] theorem clearFrame_cfg (s : State) : (clearFrame s).cfg = s.cfg := rfl
@[simp] theorem clearFrame_obuf (s : State) : (clearFrame s).obuf = s.obuf := rfl
@[simp] theorem clearFrame_out (s : State) : (clearFrame s).out = s.out := rfl
@[simp] theorem clearFrame_mode (s : State) : (clearFrame s).mode = s.mode := rfl
@[simp] theorem clearFrame_queue (s : State) : (clearFrame s).queue = s.queue := rfl

/-! ### Mode entry -/

/-- Everything an entry into Idle changes (R193, R194). -/
theorem enter_idle (s : State) :
    enter .idle s =
      { s with
        mode := .idle
        draw := { s.draw with loaded := false, corr := false, settle := false }
        cal := { s.cal with calibrating := false }
        motor := { s.motor with idleT0 := s.now } } := rfl

/-- Everything an entry into Homing changes (R193, R195). -/
theorem enter_homing (s : State) :
    enter .homing s =
      { s with
        mode := .homing
        draw := { s.draw with loaded := false, corr := false, settle := false }
        cal := { s.cal with calibrating := false }
        motor := { s.motor with en := true }
        sweep := { s.sweep with homed := ⟨false, false⟩ } } := rfl

/-- Everything an entry into Calibrating changes (R193, R196). -/
theorem enter_calibrating (s : State) :
    enter .calibrating s =
      { s with
        mode := .calibrating
        draw := { s.draw with loaded := false, corr := false, settle := false }
        cal := ⟨0#32, 0#32, 0#32, 0#32, 0#32, 0#32, false, true⟩
        motor := { s.motor with en := true }
        sweep := { s.sweep with phase := .home, homed := ⟨false, false⟩ } } := rfl

/-- Everything an entry into Drawing changes (R193, R197). -/
theorem enter_drawing (s : State) :
    enter .drawing s =
      { s with
        mode := .drawing
        draw := { s.draw with loaded := false, corr := false, settle := false }
        cal := { s.cal with calibrating := false }
        motor := { s.motor with en := true } } := rfl

section
variable (m : Mode) (s : State)

@[simp] theorem enter_mode : (enter m s).mode = m := by cases m <;> rfl
@[simp] theorem enter_cfg : (enter m s).cfg = s.cfg := by cases m <;> rfl
@[simp] theorem enter_axes : (enter m s).axes = s.axes := by cases m <;> rfl
@[simp] theorem enter_corrEn : (enter m s).corrEn = s.corrEn := by cases m <;> rfl
@[simp] theorem enter_draw :
    (enter m s).draw = { s.draw with loaded := false, corr := false, settle := false } := by cases m <;> rfl
@[simp] theorem enter_enc : (enter m s).enc = s.enc := by cases m <;> rfl
@[simp] theorem enter_sw : (enter m s).sw = s.sw := by cases m <;> rfl
@[simp] theorem enter_queue : (enter m s).queue = s.queue := by cases m <;> rfl
@[simp] theorem enter_framer : (enter m s).framer = s.framer := by cases m <;> rfl
@[simp] theorem enter_obuf : (enter m s).obuf = s.obuf := by cases m <;> rfl
@[simp] theorem enter_now : (enter m s).now = s.now := by cases m <;> rfl
@[simp] theorem enter_out : (enter m s).out = s.out := by cases m <;> rfl
@[simp] theorem enter_draws : (enter m s).draws = s.draws := by cases m <;> rfl
@[simp] theorem enter_rx : (enter m s).rx = s.rx := by cases m <;> rfl
@[simp] theorem enter_ticks : (enter m s).ticks = s.ticks := by cases m <;> rfl
@[simp] theorem enter_moved : (enter m s).sweep.moved = s.sweep.moved := by cases m <;> rfl
@[simp] theorem enter_maxed : (enter m s).sweep.maxed = s.sweep.maxed := by cases m <;> rfl

/-- An entry into any mode but Idle enables the motors; into Idle it leaves MOTOR_EN. -/
theorem enter_motor_en : (enter m s).motor.en = if m = .idle then s.motor.en else true := by cases m <;> rfl

/-- CALIBRATING is set exactly by an entry into Calibrating. -/
theorem enter_calibrating_flag : (enter m s).cal.calibrating = decide (m = .calibrating) := by cases m <;> rfl

end

/-- The mode codes and the modes name each other. -/
theorem Mode.ofCode_eq_some {w : Word} {m : Mode} : Mode.ofCode w = some m ↔ w = m.code := by
  unfold Mode.ofCode
  cases m <;> simp only [Mode.code] <;> split_ifs <;> simp_all

/-- A code is no mode exactly when it is none of the four. -/
theorem Mode.ofCode_eq_none {w : Word} :
    Mode.ofCode w = none ↔ w ≠ 0#32 ∧ w ≠ 1#32 ∧ w ≠ 2#32 ∧ w ≠ 3#32 := by
  unfold Mode.ofCode
  split_ifs <;> simp_all

/-! ### The queue -/

theorem nextIndex_lt {c : Config} (h : 0 < c.queueN) (i : Nat) : nextIndex c i < c.queueN := Nat.mod_lt _ h

/-- Everything an enqueue that goes on can have done: nothing on a full queue, otherwise the slot at TAIL and TAIL. -/
theorem tryEnqueue_cases {w : Waypoint} {s t : State} (h : tryEnqueue w s = .next t) :
    (qFull s ∧ t = s) ∨
    (¬ qFull s ∧ s.queue.tail < s.queue.slots.length ∧
      t = { s with queue :=
              ⟨s.queue.slots.set s.queue.tail w, s.queue.head, nextIndex s.cfg s.queue.tail⟩ }) := by
  unfold tryEnqueue at h
  split_ifs at h with hf
  · exact .inl ⟨hf, by simpa using h.symm⟩
  · refine .inr ⟨hf, ?_⟩
    unfold qWrite at h
    split_ifs at h with hl
    · refine ⟨hl, ?_⟩
      simp only [andThen_next, Host.Outcome.next.injEq] at h
      exact h.symm
    · simp at h

/-- An enqueue on a queue that is not full and whose TAIL is a slot. -/
theorem tryEnqueue_of_slot {w : Waypoint} {s : State} (hf : ¬ qFull s) (hl : s.queue.tail < s.queue.slots.length) :
    tryEnqueue w s =
      .next { s with queue :=
                ⟨s.queue.slots.set s.queue.tail w, s.queue.head, nextIndex s.cfg s.queue.tail⟩ } := by
  unfold tryEnqueue qWrite
  rw [if_neg hf, if_pos hl]
  rfl

/-- Everything a dequeue does: HEAD, on a queue that is not empty. -/
theorem tryDequeue_eq (s : State) :
    tryDequeue s =
      if qEmpty s then s else { s with queue := { s.queue with head := nextIndex s.cfg s.queue.head } } := rfl

end Sys2Proof.Machine
end

