-- ==== Sys2Proof/Laws/Framer.lean ====
section
/-! SUPPORT. What the framer's operations can do, each said once, and that each keeps the framer's registers in
range. -/

namespace Sys2Proof.Machine

/-- The length of a payload is PLEN. -/
@[simp] theorem FramerRegs.payload_length (f : FramerRegs) : f.payload.length = f.plen := by
  simp [FramerRegs.payload]

/-- Append takes nothing once the frame has ended, ends it by overflow, or adds one byte. -/
theorem FramerRegs.append_cases (c : Config) (x : Byte) (f : FramerRegs) :
    (f.st ≠ .inFrame ∧ f.append c x = f) ∨
    (f.st = .inFrame ∧ c.frameBufLen ≤ f.plen ∧ f.append c x = { f with ovf := true, st := .pending }) ∨
    (f.st = .inFrame ∧ f.plen < c.frameBufLen ∧
      f.append c x = { f with pbuf := f.pbuf.write f.plen x, plen := f.plen + 1 }) := by
  unfold FramerRegs.append
  split_ifs with h1 h2
  · exact .inl ⟨h1, rfl⟩
  · exact .inr (.inl ⟨not_not.1 h1, h2, rfl⟩)
  · exact .inr (.inr ⟨not_not.1 h1, by omega, rfl⟩)

/-- A byte that fits is the last of the payload, and the others stay. -/
theorem FramerRegs.append_payload {c : Config} {x : Byte} {f : FramerRegs} (hst : f.st = .inFrame)
    (hlen : f.plen < c.frameBufLen) (hwf : f.pbuf.wf = true) : (f.append c x).payload = f.payload ++ [x] := by
  rcases f.append_cases c x with ⟨h, -⟩ | ⟨-, h, -⟩ | ⟨-, -, h⟩
  · exact absurd hst h
  · omega
  · rw [h]
    simp only [FramerRegs.payload, List.range_succ, List.map_append, List.map_cons, List.map_nil,
      Memory.read_write_same hwf]
    congr 1
    refine List.map_congr_left fun k hk => ?_
    rw [Memory.read_write_ne]
    have := List.mem_range.1 hk
    omega

@[simp] theorem FramerRegs.reEmit_zero (c : Config) (f : FramerRegs) : f.reEmit c 0 = f := rfl

theorem FramerRegs.reEmit_succ (c : Config) (n : Nat) (f : FramerRegs) :
    f.reEmit c (n + 1) = (f.append c c.frameEnd).reEmit c n := rfl

/-- What Append keeps, whatever it does: the run counts, and everything the range of PBUF asks for. -/
structure FramerRegs.BufferOk (c : Config) (f : FramerRegs) : Prop where
  wf : f.pbuf.wf = true
  keys : ∀ cell ∈ f.pbuf, cell.1 < c.frameBufLen
  plen : f.plen ≤ c.frameBufLen
  ovf : f.ovf = true → f.st = .pending

theorem FramerRegs.append_bufferOk {c : Config} {f : FramerRegs} (h : f.BufferOk c) (x : Byte) :
    (f.append c x).BufferOk c := by
  rcases f.append_cases c x with ⟨-, e⟩ | ⟨-, -, e⟩ | ⟨-, hl, e⟩ <;> rw [e]
  · exact h
  · exact ⟨h.wf, h.keys, h.plen, fun _ => rfl⟩
  · refine ⟨Memory.write_wf h.wf _ _, fun cell hc => ?_, hl, h.ovf⟩
    rcases Memory.mem_write hc with hc | rfl
    · exact h.keys _ hc
    · exact hl

theorem FramerRegs.append_st (c : Config) (x : Byte) (f : FramerRegs) (h : f.st ≠ .hunt) :
    (f.append c x).st ≠ .hunt := by
  rcases f.append_cases c x with ⟨-, e⟩ | ⟨-, -, e⟩ | ⟨-, -, e⟩ <;> rw [e]
  · exact h
  · simp
  · exact h

@[simp] theorem FramerRegs.append_srun (c : Config) (x : Byte) (f : FramerRegs) : (f.append c x).srun = f.srun := by
  rcases f.append_cases c x with ⟨-, e⟩ | ⟨-, -, e⟩ | ⟨-, -, e⟩ <;> rw [e]

@[simp] theorem FramerRegs.append_erun (c : Config) (x : Byte) (f : FramerRegs) : (f.append c x).erun = f.erun := by
  rcases f.append_cases c x with ⟨-, e⟩ | ⟨-, -, e⟩ | ⟨-, -, e⟩ <;> rw [e]

/-- Re-emitting a false terminator keeps the buffer in range, and the run counts. -/
theorem FramerRegs.reEmit_keeps (c : Config) (n : Nat) :
    ∀ f : FramerRegs, f.BufferOk c → f.st ≠ .hunt →
      (f.reEmit c n).BufferOk c ∧ (f.reEmit c n).st ≠ .hunt ∧ (f.reEmit c n).srun = f.srun := by
  induction n with
  | zero => exact fun f h hs => ⟨h, hs, rfl⟩
  | succ n ih =>
    intro f h hs
    obtain ⟨h1, h2, h3⟩ := ih _ (append_bufferOk h c.frameEnd) (append_st c c.frameEnd f hs)
    exact ⟨h1, h2, by rw [FramerRegs.reEmit_succ, h3, FramerRegs.append_srun]⟩

/-- Clearing a frame leaves the framer's registers in range. -/
theorem FramerRegs.cleared_inRange {c : Config} {f : FramerRegs} (h : f.InRange c) :
    ({ f with plen := 0, ovf := false, erun := 0, srun := 0, st := .hunt } : FramerRegs).InRange c := by
  obtain ⟨h1, h2, -⟩ := h
  refine ⟨h1, h2, ?_⟩
  simp

/-- Feeding a byte keeps the framer's registers in range (R52). -/
theorem FramerRegs.feed_inRange {c : Config} {f : FramerRegs} (h : f.InRange c) (b : Byte) :
    (f.feed c b).InRange c := by
  obtain ⟨hwf, hkeys, hplen, hsrun, herun, hs0, he0, hovf⟩ := h
  unfold FramerRegs.feed
  split
  next hst =>
    have he : f.erun = 0 := he0 (by simp [hst])
    have hov : f.ovf = false := by
      cases ho : f.ovf
      · rfl
      · simp [hovf ho] at hst
    unfold FramerRegs.hunt
    split_ifs with h1 h2
    · exact ⟨hwf, hkeys, Nat.zero_le _, by simp, by simp, by simp, by simp, by simp⟩
    · exact ⟨hwf, hkeys, hplen, by simp; omega, herun, by simp [hst], by simp [he], by simp [hov]⟩
    · exact ⟨hwf, hkeys, hplen, by simp, herun, by simp, by simp [he], by simp [hov]⟩
  next hst =>
    have hs : f.srun = 0 := hs0 (by simp [hst])
    have hb : f.BufferOk c := ⟨hwf, hkeys, hplen, hovf⟩
    unfold FramerRegs.collect
    split_ifs with h1 h2
    · exact ⟨hwf, hkeys, hplen, hsrun, by simp, by simp [hs], by simp, by simp⟩
    · exact ⟨hwf, hkeys, hplen, hsrun, by simp; omega, by simp [hs], by simp [hst], hovf⟩
    · obtain ⟨k1, k2, k3⟩ := FramerRegs.reEmit_keeps c f.erun f hb (by simp [hst])
      have k4 : ({ f.reEmit c f.erun with erun := 0 } : FramerRegs).BufferOk c := ⟨k1.wf, k1.keys, k1.plen, k1.ovf⟩
      have k5 := FramerRegs.append_bufferOk k4 b
      refine ⟨k5.wf, k5.keys, k5.plen, ?_, ?_, ?_, ?_, k5.ovf⟩ <;> simp [k3, hs]
  next hst => exact ⟨hwf, hkeys, hplen, hsrun, herun, hs0, he0, hovf⟩

/-- Everything taking a byte changes: the framer and the consumed count. -/
theorem feedByte_eq (b : Byte) (s : State) :
    feedByte b s =
      { s with
        framer := s.framer.feed s.cfg b
        out := { s.out with consumed := s.out.consumed + 1 } } := rfl

/-- A framer that reads its payload reads below PLEN only, so only those bytes of PBUF matter (R17, R292). -/
theorem FramerRegs.payload_congr {f g : FramerRegs} (hlen : f.plen = g.plen)
    (h : ∀ k, k < f.plen → f.pbuf.read k = g.pbuf.read k) : f.payload = g.payload := by
  unfold FramerRegs.payload
  rw [← hlen]
  exact List.map_congr_left fun k hk => h k (List.mem_range.1 hk)

end Sys2Proof.Machine
end

