-- ==== Sys2Proof/Laws/Sequencer.lean ====
section
/-! SUPPORT. What the mode steps, the phases of a tick and the step can do, each said once. -/

namespace Sys2Proof.Machine

/-! ### Homing -/

/-- Everything a snap of AMP changes (R200). -/
theorem snap_amp (s : State) :
    snap .amp s =
      { s with axes := ⟨{ s.axes.amp with pos := s.cal.minAmp, tgt := s.cal.minAmp }, s.axes.ang⟩ } := rfl

/-- Everything a snap of ANG changes (R201). -/
theorem snap_ang (s : State) :
    snap .ang s =
      { s with
        axes := ⟨s.axes.amp, { s.axes.ang with pos := 0#32, tgt := 0#32 }⟩
        enc := 0#32 } := rfl

/-- An axis that homes has homed before, is snapped, steps backward, or waits. -/
theorem homeAxis_cases (a : Axis) (s : State) :
    (s.sweep.homed.get a = true ∧ homeAxis a s = s) ∨
    (s.sweep.homed.get a = false ∧ debPressed (zeroSwitch a) s ∧
      homeAxis a s = (snap a s).onSweep fun r => { r with homed := r.homed.set a true }) ∨
    (s.sweep.homed.get a = false ∧ ¬ debPressed (zeroSwitch a) s ∧ ready a s ∧ homeAxis a s = pulse a false s) ∨
    (s.sweep.homed.get a = false ∧ ¬ debPressed (zeroSwitch a) s ∧ ¬ ready a s ∧ homeAxis a s = s) := by
  unfold homeAxis
  split_ifs with h1 h2
  · exact .inl ⟨h1, rfl⟩
  · exact .inr (.inl ⟨by simpa using h1, h2, rfl⟩)
  · rcases singleStepAtSpeed_cases a false s with ⟨h3, e⟩ | ⟨h3, e⟩
    · exact .inr (.inr (.inl ⟨by simpa using h1, h2, h3, e⟩))
    · exact .inr (.inr (.inr ⟨by simpa using h1, h2, h3, e⟩))

/-- A homing step is the two axes, then HomeDone where both have homed. -/
theorem homeStep_cases (s : State) :
    (∃ t, t = homeAxis .ang (homeAxis .amp s) ∧ t.sweep.homed.amp = true ∧ t.sweep.homed.ang = true ∧
      homeStep s = homeDone t) ∨
    (∃ t, t = homeAxis .ang (homeAxis .amp s) ∧ ¬ (t.sweep.homed.amp = true ∧ t.sweep.homed.ang = true) ∧
      homeStep s = t) := by
  simp only [homeStep]
  split_ifs with h
  · exact .inl ⟨_, rfl, h.1, h.2, rfl⟩
  · exact .inr ⟨_, rfl, h, rfl⟩

/-! ### Calibration -/

/-- A truncation is the value R15 gives it, or a fresh draw. -/
theorem truncOrDraw_cases (f : Word) (s : State) :
    (∃ v, truncI32 f = some v ∧ truncOrDraw f s = (v, s)) ∨
    (truncI32 f = none ∧ truncOrDraw f s = (Config.truncDraw s.draws, { s with draws := s.draws + 1 })) := by
  unfold truncOrDraw
  split
  next v h => exact .inl ⟨v, h, rfl⟩
  next h => exact .inr ⟨h, rfl⟩

/-- Everything the amplitude derivation changes (R204): four calibration registers and the count of draws. -/
theorem deriveAmp_shape (s : State) :
    ∃ minAmp draws,
      deriveAmp s =
        { s with
          cal := { s.cal with
            travel := s.sweep.moved.amp
            spmm := f32Div (f32FromInt s.sweep.moved.amp.toInt) s.cfg.travelMm
            minAmp := minAmp
            maxAmp := s.sweep.moved.amp + minAmp }
          draws := draws } := by
  unfold deriveAmp
  rcases truncOrDraw_cases
    (f32Mul s.cfg.offsetMm (f32Div (f32FromInt s.sweep.moved.amp.toInt) s.cfg.travelMm)) s with
    ⟨v, -, e⟩ | ⟨-, e⟩
  · exact ⟨v, s.draws, by simp only [e]; rfl⟩
  · exact ⟨_, s.draws + 1, by simp only [e]; rfl⟩

/-- Everything the angle derivation changes (R205). -/
theorem deriveAng_eq (s : State) :
    deriveAng s = { s with cal := { s.cal with maxAng := s.sweep.moved.ang, maxEnc := s.enc } } := rfl

/-- An axis in the max phase has been confirmed before, is derived, steps forward and is counted, or waits. -/
theorem calMaxAxis_cases (a : Axis) (s : State) :
    (s.sweep.maxed.get a = true ∧ calMaxAxis a s = s) ∨
    (s.sweep.maxed.get a = false ∧ debPressed (maxSwitch a) s ∧
      calMaxAxis a s = (derive a s).onSweep fun r => { r with maxed := r.maxed.set a true }) ∨
    (s.sweep.maxed.get a = false ∧ ¬ debPressed (maxSwitch a) s ∧ ready a s ∧
      calMaxAxis a s =
        (pulse a true s).onSweep fun r => { r with moved := r.moved.set a (r.moved.get a + 1#32) }) ∨
    (s.sweep.maxed.get a = false ∧ ¬ debPressed (maxSwitch a) s ∧ ¬ ready a s ∧ calMaxAxis a s = s) := by
  unfold calMaxAxis
  split_ifs with h1 h2 h3
  · exact .inl ⟨h1, rfl⟩
  · exact .inr (.inl ⟨by simpa using h1, h2, rfl⟩)
  · refine .inr (.inr (.inl ⟨by simpa using h1, h2, h3, ?_⟩))
    rw [singleStepAtSpeed, if_pos h3]
  · exact .inr (.inr (.inr ⟨by simpa using h1, h2, h3, rfl⟩))

/-- A max-phase step is the two axes, then CalDone where both are confirmed. -/
theorem calMaxStep_cases (s : State) :
    (∃ t, t = calMaxAxis .ang (calMaxAxis .amp s) ∧ t.sweep.maxed.amp = true ∧ t.sweep.maxed.ang = true ∧
      calMaxStep s = calDone t) ∨
    (∃ t, t = calMaxAxis .ang (calMaxAxis .amp s) ∧ ¬ (t.sweep.maxed.amp = true ∧ t.sweep.maxed.ang = true) ∧
      calMaxStep s = t) := by
  simp only [calMaxStep]
  split_ifs with h
  · exact .inl ⟨_, rfl, h.1, h.2, rfl⟩
  · exact .inr ⟨_, rfl, h, rfl⟩

/-! ### Drawing -/

/-- Everything a pen update changes: nothing, or the pen command and the start of the hold (R210). -/
theorem penUpdate_cases (p : Word) (s : State) :
    ((s.draw.penValid = false ∨ s.cfg.penTol < absDiff p s.draw.penLast) ∧
      penUpdate p s =
        { s with
          out := { s.out with penCmd := some p }
          draw := { s.draw with penLast := p, penValid := true, settle := true, settleT0 := s.now } }) ∨
    (¬ (s.draw.penValid = false ∨ s.cfg.penTol < absDiff p s.draw.penLast) ∧ penUpdate p s = s) := by
  unfold penUpdate
  split_ifs with h
  · exact .inl ⟨h, rfl⟩
  · exact .inr ⟨h, rfl⟩

/-- Everything a load changes besides the pen (R209). -/
theorem loadWaypoint_eq (w : Waypoint) (s : State) :
    loadWaypoint w s =
      (penUpdate w.pen
        { s with
          axes :=
            ⟨{ s.axes.amp.setSpeed s.cfg w.vamp with tgt := w.amp },
              { s.axes.ang.setSpeed s.cfg w.vang with tgt := w.ang }⟩ }).onDraw fun d =>
        { d with loaded := true, corr := false } := rfl

/-- Everything a completion changes (R212): HEAD, on a queue that is not empty, and LOADED. -/
theorem complete_eq (s : State) :
    complete s =
      if qEmpty s then { s with draw := { s.draw with loaded := false } }
      else { s with
        queue := { s.queue with head := nextIndex s.cfg s.queue.head }
        draw := { s.draw with loaded := false } } := by
  unfold complete
  rw [tryDequeue_eq]
  split_ifs <;> rfl

@[simp] theorem completeIf_complete (s : State) : completeIf (s, .complete) = complete s := rfl
@[simp] theorem completeIf_goOn (s : State) : completeIf (s, .goOn) = s := rfl

/-- The stepping part steps both axes, then checks the arrival where both are at their targets (R211). -/
theorem stepAxes_cases (s : State) :
    (∃ t, t = stepTowardTarget .ang (stepTowardTarget .amp s) ∧ reached .amp t ∧ reached .ang t ∧
      stepAxes s = completeIf (arrivalCheck t)) ∨
    (∃ t, t = stepTowardTarget .ang (stepTowardTarget .amp s) ∧ ¬ (reached .amp t ∧ reached .ang t) ∧
      stepAxes s = t) := by
  simp only [stepAxes]
  split_ifs with h
  · exact .inl ⟨_, rfl, h.1, h.2, rfl⟩
  · exact .inr ⟨_, rfl, h, rfl⟩

/-- Everything the part of a Drawing step after the hold can do (R207). -/
theorem drawRun_cases (s : State) :
    (s.draw.loaded = false ∧ qEmpty s ∧ drawRun s = .next (enter .idle s)) ∨
    (s.draw.loaded = false ∧ ¬ qEmpty s ∧ ∃ w, s.queue.slots[s.queue.head]? = some w ∧
      drawRun s = .next (loadWaypoint w s)) ∨
    (s.draw.loaded = false ∧ ¬ qEmpty s ∧ s.queue.slots.length ≤ s.queue.head ∧
      drawRun s = .fault (.noSuchSlot s.queue.head)) ∨
    (s.draw.loaded = true ∧ s.draw.corr = true ∧ drawRun s = .next (completeIf (correctionStep s))) ∨
    (s.draw.loaded = true ∧ s.draw.corr = false ∧ drawRun s = .next (stepAxes s)) := by
  unfold drawRun
  split_ifs with h1 h2 h3
  · exact .inl ⟨h1, h2, rfl⟩
  · unfold peekNext qRead
    rw [if_neg h2]
    cases hw : s.queue.slots[s.queue.head]? with
    | some w => exact .inr (.inl ⟨h1, h2, w, rfl, rfl⟩)
    | none => exact .inr (.inr (.inl ⟨h1, h2, List.getElem?_eq_none_iff.1 hw, rfl⟩))
  · exact .inr (.inr (.inr (.inl ⟨by simpa using h1, h3, rfl⟩)))
  · exact .inr (.inr (.inr (.inr ⟨by simpa using h1, by simpa using h3, rfl⟩)))

/-- A Drawing step holds, or goes on with SETTLE cleared (R208). -/
theorem drawStep_cases (s : State) :
    (settling s ∧ drawStep s = .next s) ∨
    (¬ settling s ∧ drawStep s = drawRun { s with draw := { s.draw with settle := false } }) := by
  unfold drawStep
  split_ifs with h
  · exact .inl ⟨h, rfl⟩
  · exact .inr ⟨h, rfl⟩

/-- The mode step by mode (R192). -/
theorem modeStep_cases (s : State) :
    (s.mode = .idle ∧ modeStep s = .next s) ∨
    ((s.mode = .homing ∨ s.mode = .calibrating ∧ s.sweep.phase = .home) ∧ modeStep s = .next (homeStep s)) ∨
    (s.mode = .calibrating ∧ s.sweep.phase = .max ∧ modeStep s = .next (calMaxStep s)) ∨
    (s.mode = .drawing ∧ modeStep s = drawStep s) := by
  cases hm : s.mode <;> cases hp : s.sweep.phase <;> simp [modeStep, hm, hp]

/-! ### Phases -/

/-- The output drain does nothing, or takes the first byte (R248). -/
theorem outputDrain_cases (ready : Bool) (s : State) :
    ((s.obuf = [] ∨ ready = false) ∧ outputDrain ready s = s) ∨
    (∃ b rest, s.obuf = b :: rest ∧ ready = true ∧
      outputDrain ready s = { s with obuf := rest, out := { s.out with outByte := some b } }) := by
  unfold outputDrain
  cases h : s.obuf with
  | nil => exact .inl ⟨.inl rfl, rfl⟩
  | cons b rest =>
    cases ready
    · exact .inl ⟨.inr rfl, rfl⟩
    · exact .inr ⟨b, rest, rfl, rfl, rfl⟩

/-- Everything the start of a tick changes: `now` and a fresh output record (R190). -/
theorem beginTick_eq (t : TickIn) (s : State) :
    beginTick t s =
      { s with
        now := t.now
        out := { s.out with pulses := [], penCmd := none, outByte := none, consumed := 0, diag := [] } } := rfl

/-- Everything the motor-enable phase changes (R214). -/
theorem motorEnableUpdate_cases (s : State) :
    (dwellOver s ∧
      motorEnableUpdate s =
        { s with motor := { s.motor with en := false }, out := { s.out with motorEnOut := false } }) ∨
    (¬ dwellOver s ∧ motorEnableUpdate s = { s with out := { s.out with motorEnOut := s.motor.en } }) := by
  simp only [motorEnableUpdate]
  split_ifs with h
  · exact .inl ⟨h, rfl⟩
  · exact .inr ⟨h, rfl⟩

/-- A dispatch that goes on: the frame was run, and then cleared (R237). -/
theorem dispatchFrame_eq_next {s t : State} :
    dispatchFrame s = .next t ↔ ∃ u, runFrame s = .next u ∧ t = clearFrame u := by
  simp only [dispatchFrame, andThen_eq_next, Host.Outcome.next.injEq]
  exact exists_congr fun u => and_congr_right fun _ => eq_comm

/-- What running a frame is, in the priority of R273. -/
theorem runFrame_cases (s : State) :
    (s.framer.ovf = true ∧ runFrame s = raise none .overflow s) ∨
    (s.framer.ovf = false ∧ ∃ i, decode s.cfg s.framer.payload = .ok i ∧ runFrame s = exec i s) ∨
    (s.framer.ovf = false ∧ ∃ tag, decode s.cfg s.framer.payload = .error (.short tag) ∧
      runFrame s = raise tag .short s) ∨
    (s.framer.ovf = false ∧ ∃ tag, decode s.cfg s.framer.payload = .error (.unknownTag tag) ∧
      runFrame s = unrecognized tag s) := by
  unfold runFrame
  split_ifs with h
  · exact .inl ⟨h, rfl⟩
  · have h' : s.framer.ovf = false := by simpa using h
    split
    next i e => exact .inr (.inl ⟨h', i, e, rfl⟩)
    next tag e => exact .inr (.inr (.inl ⟨h', tag, e, rfl⟩))
    next tag e => exact .inr (.inr (.inr ⟨h', tag, e, rfl⟩))

theorem inputLoop_nil (s : State) : inputLoop [] s = .next s := rfl

/-- The byte loop takes a byte and then goes on, dispatches and goes on, or holds (R236). -/
theorem inputLoop_cons (b : Byte) (bs : List Byte) (s : State) :
    ((feedByte b s).framer.st ≠ .pending ∧ inputLoop (b :: bs) s = inputLoop bs (feedByte b s)) ∨
    ((feedByte b s).framer.st = .pending ∧ replyRoom s ∧
      inputLoop (b :: bs) s = andThen (dispatchFrame (feedByte b s)) (inputLoop bs)) ∨
    ((feedByte b s).framer.st = .pending ∧ ¬ replyRoom s ∧ inputLoop (b :: bs) s = .next (feedByte b s)) := by
  rw [inputLoop]
  split_ifs with h1 h2
  · exact .inr (.inl ⟨h1, h2, rfl⟩)
  · exact .inr (.inr ⟨h1, h2, rfl⟩)
  · exact .inl ⟨h1, rfl⟩

/-- A scheduled tick that goes on: phase A, then phases B to E, then the transport's keeping. -/
theorem transportTick_eq_next {t : TickIn} {s v : State} :
    transportTick t s = .next v ↔
      ∃ u w, inputPhase (s.rx ++ t.inBytes) (beginTick t s) = .next u ∧ afterInput t u = .next w ∧
        v = w.setRx ((s.rx ++ t.inBytes).drop w.out.consumed) := by
  unfold transportTick tick
  simp only [andThen_eq_next, Host.Outcome.next.injEq]
  constructor
  · rintro ⟨w, ⟨u, h1, h2⟩, rfl⟩
    exact ⟨u, w, h1, h2, rfl⟩
  · rintro ⟨u, w, h1, h2, rfl⟩
    exact ⟨w, ⟨u, h1, h2⟩, rfl⟩

/-- Phases B to E that go on: drain, sampling, the mode step, the motor enable. -/
theorem afterInput_eq_next {t : TickIn} {s v : State} :
    afterInput t s = .next v ↔
      ∃ u, modeStep (sample t (outputDrain t.outReady s)) = .next u ∧ v = motorEnableUpdate u := by
  simp only [afterInput, andThen_eq_next, Host.Outcome.next.injEq]
  exact exists_congr fun u => and_congr_right fun _ => eq_comm

/-- A step with no tick scheduled, and with one. -/
theorem step_cases (s : State) :
    (s.ticks = [] ∧ step s = .next s) ∨
    (∃ t rest, s.ticks = t :: rest ∧ step s = transportTick t (s.setTicks rest)) := by
  unfold step scheduledTick
  cases h : s.ticks with
  | nil => exact .inl ⟨rfl, rfl⟩
  | cons t rest => exact .inr ⟨t, rest, rfl, rfl⟩

end Sys2Proof.Machine
end

