-- ==== Sys2Proof/Laws/Frames.lean ====
section
/-! SUPPORT. What the mode step and the phases around it leave alone, said once for all of them. -/

namespace Sys2Proof.Machine

/-- What no mode step changes: the framer, OBUF, the switches, `now`, the records of the dispatches, CORR_EN, and the
configuration and environment the model holds. -/
structure SameInput (s t : State) : Prop where
  cfg : t.cfg = s.cfg
  corrEn : t.corrEn = s.corrEn
  framer : t.framer = s.framer
  obuf : t.obuf = s.obuf
  sw : t.sw = s.sw
  now : t.now = s.now
  diag : t.out.diag = s.out.diag
  outByte : t.out.outByte = s.out.outByte
  consumed : t.out.consumed = s.out.consumed
  motorEnOut : t.out.motorEnOut = s.out.motorEnOut
  rx : t.rx = s.rx
  ticks : t.ticks = s.ticks

theorem SameInput.refl (s : State) : SameInput s s :=
  ⟨rfl, rfl, rfl, rfl, rfl, rfl, rfl, rfl, rfl, rfl, rfl, rfl⟩

theorem SameInput.trans {s t u : State} (h : SameInput s t) (k : SameInput t u) : SameInput s u :=
  ⟨k.cfg.trans h.cfg, k.corrEn.trans h.corrEn, k.framer.trans h.framer, k.obuf.trans h.obuf, k.sw.trans h.sw,
    k.now.trans h.now, k.diag.trans h.diag, k.outByte.trans h.outByte, k.consumed.trans h.consumed,
    k.motorEnOut.trans h.motorEnOut, k.rx.trans h.rx, k.ticks.trans h.ticks⟩

theorem pulse_sameInput (a : Axis) (d : Bool) (s : State) : SameInput s (pulse a d s) :=
  ⟨rfl, rfl, rfl, rfl, rfl, rfl, rfl, rfl, rfl, rfl, rfl, rfl⟩

theorem stepTowardTarget_sameInput (a : Axis) (s : State) : SameInput s (stepTowardTarget a s) := by
  rcases stepTowardTarget_cases a s with ⟨-, e⟩ | ⟨-, -, e⟩ <;> rw [e]
  · exact .refl s
  · exact pulse_sameInput a _ s

theorem singleStepAtSpeed_sameInput (a : Axis) (d : Bool) (s : State) : SameInput s (singleStepAtSpeed a d s) := by
  rcases singleStepAtSpeed_cases a d s with ⟨-, e⟩ | ⟨-, e⟩ <;> rw [e]
  · exact pulse_sameInput a d s
  · exact .refl s

theorem enter_sameInput (m : Mode) (s : State) : SameInput s (enter m s) := by
  cases m <;> exact ⟨rfl, rfl, rfl, rfl, rfl, rfl, rfl, rfl, rfl, rfl, rfl, rfl⟩

theorem homeAxis_sameInput (a : Axis) (s : State) : SameInput s (homeAxis a s) := by
  rcases homeAxis_cases a s with ⟨-, e⟩ | ⟨-, -, e⟩ | ⟨-, -, -, e⟩ | ⟨-, -, -, e⟩ <;> rw [e]
  · exact .refl s
  · cases a <;> exact ⟨rfl, rfl, rfl, rfl, rfl, rfl, rfl, rfl, rfl, rfl, rfl, rfl⟩
  · exact pulse_sameInput a _ s
  · exact .refl s

theorem homeDone_sameInput (s : State) : SameInput s (homeDone s) := by
  unfold homeDone
  split_ifs
  · exact enter_sameInput _ s
  · exact ⟨rfl, rfl, rfl, rfl, rfl, rfl, rfl, rfl, rfl, rfl, rfl, rfl⟩

theorem homeStep_sameInput (s : State) : SameInput s (homeStep s) := by
  have h := (homeAxis_sameInput .amp s).trans (homeAxis_sameInput .ang _)
  rcases homeStep_cases s with ⟨t, rfl, -, -, e⟩ | ⟨t, rfl, -, e⟩ <;> rw [e]
  · exact h.trans (homeDone_sameInput _)
  · exact h

theorem derive_sameInput (a : Axis) (s : State) : SameInput s (derive a s) := by
  cases a
  · obtain ⟨m, d, e⟩ := deriveAmp_shape s
    rw [show derive .amp s = deriveAmp s from rfl, e]
    exact ⟨rfl, rfl, rfl, rfl, rfl, rfl, rfl, rfl, rfl, rfl, rfl, rfl⟩
  · exact ⟨rfl, rfl, rfl, rfl, rfl, rfl, rfl, rfl, rfl, rfl, rfl, rfl⟩

theorem calMaxAxis_sameInput (a : Axis) (s : State) : SameInput s (calMaxAxis a s) := by
  rcases calMaxAxis_cases a s with ⟨-, e⟩ | ⟨-, -, e⟩ | ⟨-, -, -, e⟩ | ⟨-, -, -, e⟩ <;> rw [e]
  · exact .refl s
  · exact (derive_sameInput a s).trans ⟨rfl, rfl, rfl, rfl, rfl, rfl, rfl, rfl, rfl, rfl, rfl, rfl⟩
  · exact (pulse_sameInput a _ s).trans ⟨rfl, rfl, rfl, rfl, rfl, rfl, rfl, rfl, rfl, rfl, rfl, rfl⟩
  · exact .refl s

theorem calDone_sameInput (s : State) : SameInput s (calDone s) :=
  ⟨rfl, rfl, rfl, rfl, rfl, rfl, rfl, rfl, rfl, rfl, rfl, rfl⟩

theorem calMaxStep_sameInput (s : State) : SameInput s (calMaxStep s) := by
  have h := (calMaxAxis_sameInput .amp s).trans (calMaxAxis_sameInput .ang _)
  rcases calMaxStep_cases s with ⟨t, rfl, -, -, e⟩ | ⟨t, rfl, -, e⟩ <;> rw [e]
  · exact h.trans (calDone_sameInput _)
  · exact h

theorem completeIf_sameInput (x : State × Verdict) : SameInput x.1 (completeIf x) := by
  obtain ⟨s, v⟩ := x
  cases v
  · rw [completeIf_complete, complete_eq]
    split_ifs <;> exact ⟨rfl, rfl, rfl, rfl, rfl, rfl, rfl, rfl, rfl, rfl, rfl, rfl⟩
  · exact .refl s

theorem arrivalCheck_sameInput (s : State) : SameInput s (arrivalCheck s).1 := by
  rcases arrivalCheck_cases s with ⟨e, -⟩ | ⟨-, -, e⟩ <;> rw [e] <;>
    exact ⟨rfl, rfl, rfl, rfl, rfl, rfl, rfl, rfl, rfl, rfl, rfl, rfl⟩

theorem correctionStep_sameInput (s : State) : SameInput s (correctionStep s).1 := by
  rcases correctionStep_cases s with ⟨-, e⟩ | ⟨-, -, e⟩ | ⟨-, -, e⟩ <;> rw [e]
  · exact ⟨rfl, rfl, rfl, rfl, rfl, rfl, rfl, rfl, rfl, rfl, rfl, rfl⟩
  · exact ⟨rfl, rfl, rfl, rfl, rfl, rfl, rfl, rfl, rfl, rfl, rfl, rfl⟩
  · exact singleStepAtSpeed_sameInput _ _ s

theorem loadWaypoint_sameInput (w : Waypoint) (s : State) : SameInput s (loadWaypoint w s) := by
  unfold loadWaypoint penUpdate
  split_ifs <;> exact ⟨rfl, rfl, rfl, rfl, rfl, rfl, rfl, rfl, rfl, rfl, rfl, rfl⟩

theorem stepAxes_sameInput (s : State) : SameInput s (stepAxes s) := by
  have h := (stepTowardTarget_sameInput .amp s).trans (stepTowardTarget_sameInput .ang _)
  rcases stepAxes_cases s with ⟨t, rfl, -, -, e⟩ | ⟨t, rfl, -, e⟩ <;> rw [e]
  · exact (h.trans (arrivalCheck_sameInput _)).trans (completeIf_sameInput _)
  · exact h

theorem drawRun_sameInput {s t : State} (h : drawRun s = .next t) : SameInput s t := by
  rcases drawRun_cases s with ⟨-, -, e⟩ | ⟨-, -, w, -, e⟩ | ⟨-, -, -, e⟩ | ⟨-, -, e⟩ | ⟨-, -, e⟩ <;>
    rw [e] at h <;> simp only [Host.Outcome.next.injEq, reduceCtorEq] at h <;> subst h
  · exact enter_sameInput _ s
  · exact loadWaypoint_sameInput w s
  · exact (correctionStep_sameInput s).trans (completeIf_sameInput _)
  · exact stepAxes_sameInput s

/-- A mode step that goes on changes none of it. -/
theorem modeStep_sameInput {s t : State} (h : modeStep s = .next t) : SameInput s t := by
  rcases modeStep_cases s with ⟨-, e⟩ | ⟨-, e⟩ | ⟨-, -, e⟩ | ⟨-, e⟩ <;> rw [e] at h
  · rw [Host.Outcome.next.injEq] at h; subst h; exact .refl s
  · rw [Host.Outcome.next.injEq] at h; subst h; exact homeStep_sameInput s
  · rw [Host.Outcome.next.injEq] at h; subst h; exact calMaxStep_sameInput s
  · rcases drawStep_cases s with ⟨-, e⟩ | ⟨-, e⟩ <;> rw [e] at h
    · rw [Host.Outcome.next.injEq] at h; subst h; exact .refl s
    · have k := drawRun_sameInput h
      exact ⟨k.cfg, k.corrEn, k.framer, k.obuf, k.sw, k.now, k.diag, k.outByte, k.consumed, k.motorEnOut, k.rx, k.ticks⟩

end Sys2Proof.Machine
end

