-- ==== Sys2Proof/Laws/Input.lean ====
section
/-! SUPPORT. What the input phase leaves alone, and which bytes it takes, said once. -/

namespace Sys2Proof.Machine

/-- What no command, dispatch or byte of the input phase changes: the axes, the encoder, the switches, `now`, the draws,
the ports of the later phases, and the configuration and environment the model holds. -/
structure SameTick (s t : State) : Prop where
  cfg : t.cfg = s.cfg
  axes : t.axes = s.axes
  enc : t.enc = s.enc
  sw : t.sw = s.sw
  now : t.now = s.now
  draws : t.draws = s.draws
  rx : t.rx = s.rx
  ticks : t.ticks = s.ticks
  pulses : t.out.pulses = s.out.pulses
  dirOut : t.out.dirOut = s.out.dirOut
  stepOut : t.out.stepOut = s.out.stepOut
  motorEnOut : t.out.motorEnOut = s.out.motorEnOut
  penCmd : t.out.penCmd = s.out.penCmd
  outByte : t.out.outByte = s.out.outByte

theorem SameTick.refl (s : State) : SameTick s s :=
  ⟨rfl, rfl, rfl, rfl, rfl, rfl, rfl, rfl, rfl, rfl, rfl, rfl, rfl, rfl⟩

theorem SameTick.trans {s t u : State} (h : SameTick s t) (k : SameTick t u) : SameTick s u :=
  ⟨k.cfg.trans h.cfg, k.axes.trans h.axes, k.enc.trans h.enc, k.sw.trans h.sw, k.now.trans h.now,
    k.draws.trans h.draws, k.rx.trans h.rx, k.ticks.trans h.ticks, k.pulses.trans h.pulses,
    k.dirOut.trans h.dirOut, k.stepOut.trans h.stepOut, k.motorEnOut.trans h.motorEnOut,
    k.penCmd.trans h.penCmd, k.outByte.trans h.outByte⟩

/-- A reply changes OBUF and the records only. -/
theorem reply_sameTick {bytes : List Byte} {tag : Option Word} {cause : Cause} {s t : State}
    (h : reply bytes tag cause s = .next t) : SameTick s t ∧ t.out.consumed = s.out.consumed := by
  obtain ⟨-, rfl⟩ := reply_eq_next.1 h
  exact ⟨⟨rfl, rfl, rfl, rfl, rfl, rfl, rfl, rfl, rfl, rfl, rfl, rfl, rfl, rfl⟩, rfl⟩

/-- A mode entry changes the sequencer's registers only. -/
theorem enter_sameTick (m : Mode) (s : State) : SameTick s (enter m s) := by
  cases m <;> exact ⟨rfl, rfl, rfl, rfl, rfl, rfl, rfl, rfl, rfl, rfl, rfl, rfl, rfl, rfl⟩

/-- A command that goes on changes none of it, and counts no byte. -/
theorem exec_sameTick {i : Instr} {s t : State} (h : exec i s = .next t) :
    SameTick s t ∧ t.out.consumed = s.out.consumed := by
  have after {bytes tag cause} {u : State} (k : SameTick s u) (hc : u.out.consumed = s.out.consumed)
      (e : reply bytes tag cause u = .next t) : SameTick s t ∧ t.out.consumed = s.out.consumed :=
    ⟨k.trans (reply_sameTick e).1, (reply_sameTick e).2.trans hc⟩
  have same (u : State) (hu : u = { s with cal := u.cal, corrEn := u.corrEn, queue := u.queue }) : SameTick s u := by
    rw [hu]; exact ⟨rfl, rfl, rfl, rfl, rfl, rfl, rfl, rfl, rfl, rfl, rfl, rfl, rfl, rfl⟩
  cases i with
  | getStatus => exact reply_sameTick h
  | setMode code =>
    simp only [exec, execSetMode] at h
    split at h
    · exact reply_sameTick h
    · exact after (enter_sameTick _ s) (by rw [enter_out]) h
  | calibrate a b c d e f =>
    exact after (same (s.onCal fun _ => ⟨a, b, c, d, e, f, true, false⟩) rfl) rfl h
  | setAngleCorr v => exact after (same (s.setCorrEn (decide (v ≠ 0#32))) rfl) rfl h
  | addPos =>
    simp only [exec, execAddPos] at h
    split_ifs at h
    · exact reply_sameTick h
    · exact reply_sameTick h
    · obtain ⟨u, e1, e2⟩ := andThen_eq_next.1 h
      rcases tryEnqueue_cases e1 with ⟨-, rfl⟩ | ⟨-, -, rfl⟩
      · exact reply_sameTick e2
      · refine after (same _ ?_) ?_ e2 <;> rfl

/-- A dispatch that goes on changes none of it, and counts no byte. -/
theorem dispatchFrame_sameTick {s t : State} (h : dispatchFrame s = .next t) :
    SameTick s t ∧ t.out.consumed = s.out.consumed := by
  obtain ⟨u, e, rfl⟩ := dispatchFrame_eq_next.1 h
  have k : SameTick s u ∧ u.out.consumed = s.out.consumed := by
    rcases runFrame_cases s with ⟨-, g⟩ | ⟨-, i, -, g⟩ | ⟨-, tag, -, g⟩ | ⟨-, tag, -, g⟩ <;> rw [g] at e
    · exact reply_sameTick e
    · exact exec_sameTick e
    · exact reply_sameTick e
    · exact reply_sameTick e
  exact ⟨k.1.trans ⟨rfl, rfl, rfl, rfl, rfl, rfl, rfl, rfl, rfl, rfl, rfl, rfl, rfl, rfl⟩, k.2⟩

/-- A byte is counted, and changes the framer besides. -/
theorem feedByte_sameTick (b : Byte) (s : State) :
    SameTick s (feedByte b s) ∧ (feedByte b s).out.consumed = s.out.consumed + 1 :=
  ⟨⟨rfl, rfl, rfl, rfl, rfl, rfl, rfl, rfl, rfl, rfl, rfl, rfl, rfl, rfl⟩, rfl⟩

/-- The byte loop takes the bytes it counts: on exactly those it gives the same state, and it leaves a byte only where it
holds a frame for room (R235, R236). -/
theorem inputLoop_takes {bs : List Byte} : ∀ {s v : State}, inputLoop bs s = .next v →
    SameTick s v ∧ ∃ n, n ≤ bs.length ∧ v.out.consumed = s.out.consumed + n ∧ inputLoop (bs.take n) s = .next v ∧
      (n < bs.length → v.framer.st = .pending ∧ ¬ replyRoom v) := by
  induction bs with
  | nil =>
    intro s v h
    rw [inputLoop_nil, Host.Outcome.next.injEq] at h
    subst h
    exact ⟨.refl s, 0, le_rfl, rfl, rfl, fun h => absurd h (lt_irrefl 0)⟩
  | cons b bs ih =>
    intro s v h
    obtain ⟨k1, k2⟩ := feedByte_sameTick b s
    rcases inputLoop_cons b bs s with ⟨hp, e⟩ | ⟨hp, hr, e⟩ | ⟨hp, hr, e⟩ <;> rw [e] at h
    · obtain ⟨m1, n, n1, n2, n3, n4⟩ := ih h
      refine ⟨k1.trans m1, n + 1, Nat.succ_le_succ n1, by omega, ?_, fun h => n4 (Nat.lt_of_succ_lt_succ h)⟩
      rw [List.take_succ_cons, inputLoop, if_neg hp]
      exact n3
    · obtain ⟨u, e1, e2⟩ := andThen_eq_next.1 h
      obtain ⟨d1, d2⟩ := dispatchFrame_sameTick e1
      obtain ⟨m1, n, n1, n2, n3, n4⟩ := ih e2
      refine ⟨(k1.trans d1).trans m1, n + 1, Nat.succ_le_succ n1, by omega, ?_,
        fun h => n4 (Nat.lt_of_succ_lt_succ h)⟩
      rw [List.take_succ_cons, inputLoop, if_pos hp, if_pos hr, e1]
      exact n3
    · rw [Host.Outcome.next.injEq] at h
      subst h
      refine ⟨k1, 1, by simp, k2, ?_, fun _ => ⟨hp, hr⟩⟩
      rw [List.take_succ_cons, inputLoop, if_pos hp, if_neg hr]

/-- The same of the whole input phase (R236). -/
theorem inputPhase_takes {bs : List Byte} {s v : State} (h : inputPhase bs s = .next v) :
    SameTick s v ∧ ∃ n, n ≤ bs.length ∧ v.out.consumed = s.out.consumed + n ∧ inputPhase (bs.take n) s = .next v ∧
      (n < bs.length → v.framer.st = .pending ∧ ¬ replyRoom v) := by
  unfold inputPhase at h ⊢
  split_ifs at h ⊢ with hp hr
  · obtain ⟨u, e1, e2⟩ := andThen_eq_next.1 h
    obtain ⟨d1, d2⟩ := dispatchFrame_sameTick e1
    obtain ⟨m1, n, n1, n2, n3, n4⟩ := inputLoop_takes e2
    exact ⟨d1.trans m1, n, n1, by omega, andThen_eq_next.2 ⟨u, e1, n3⟩, n4⟩
  · rw [Host.Outcome.next.injEq] at h
    subst h
    exact ⟨.refl s, 0, Nat.zero_le _, rfl, rfl, fun _ => ⟨hp, hr⟩⟩
  · exact inputLoop_takes h

end Sys2Proof.Machine
end

