-- ==== Sys2Proof/Laws/PerInstr.lean ====
section
/-! SUPPORT. Statements made for every command, one lemma per constructor of Instr. -/

namespace Sys2Proof.Laws.EncodingLayout

open Sys2Proof Sys2Proof.Machine

/-- The layout of a command's encoding: the tag first, then the fields in order, four bytes each, as many bytes as the
command's format requires and no more (spec/30_encoding.md R105 to R111). -/
def Statement (i : Instr) : Prop :=
  ∀ c : Config, payloadWords (encode c i) = i.tag c :: i.fields ∧ (encode c i).length = i.requiredLength

/-- The words of any encoding are its tag and its fields. -/
theorem words (c : Config) (i : Instr) : payloadWords (encode c i) = i.tag c :: i.fields := by
  have h := payloadWords_flatMap (i.tag c :: i.fields) []
  simpa [encode, payloadWords] using h

theorem getStatus : Statement .getStatus := fun c => ⟨words c _, rfl⟩

theorem setMode (mode : Word) : Statement (.setMode mode) := fun c => ⟨words c _, rfl⟩

theorem calibrate (distanceSteps stepsPerMm minAmp maxAmp maxAngle maxEncoder : Word) :
    Statement (.calibrate distanceSteps stepsPerMm minAmp maxAmp maxAngle maxEncoder) := fun c => ⟨words c _, rfl⟩

theorem setAngleCorr (enabled : Word) : Statement (.setAngleCorr enabled) := fun c => ⟨words c _, rfl⟩

theorem addPos (ampPos anglePos penPos ampVel angleVel checksum : Word) :
    Statement (.addPos ampPos anglePos penPos ampVel angleVel checksum) := fun c => ⟨words c _, rfl⟩

end Sys2Proof.Laws.EncodingLayout
end

