-- ==== Sys2Proof/Tests/Slice0.lean ====
section
/-! SUPPORT. The model's own tests. A test's expected result is taken from the vector of spec/95_test_vectors.md that its
comment names; a `witness_` theorem shows a concrete state that meets the hypotheses of the obligation it names. -/

-- One theorem at a time: each kernel evaluation below waits for the theorems before it, and a thread for each of them
-- would not fit the memory limit.
set_option Elab.async false

namespace Sys2Proof.Tests

open Sys2Proof Sys2Proof.Machine

/-! ### Helpers -/

/-- The state an outcome goes on with; the reset state where it does not. -/
def after : Result → State
  | .next t => t
  | _ => State.reset

/-- The outcome is a next state. -/
def goesOn : Result → Bool
  | .next _ => true
  | _ => false

theorem next_after {r : Result} (h : goesOn r = true) : r = .next (after r) := by
  cases r with
  | next t => rfl
  | fault e => cases h
  | refused e => cases h

/-- The invariant, from its parts together. -/
theorem inv_of {s : State}
    (h : s.cfg.Valid ∧ AxesInRange s ∧ SwitchesInRange s ∧ QueueInRange s ∧ s.framer.InRange s.cfg ∧ FifoInRange s)
    (k : SequencerOk s) (l : PortsOk s) : Inv s :=
  ⟨h.1, h.2.1, h.2.2.1, h.2.2.2.1, h.2.2.2.2.1, h.2.2.2.2.2, k, l⟩

/-- TC with one change. -/
def tcWith (f : Config → Config) : Config := f Config.tc

/-- The reset state, in tick 0 with these bytes from the host. -/
def onReset (bytes : List Byte) : State :=
  { State.reset with ticks := [{ TickIn.plain 0#32 with inBytes := bytes }] }

/-- The state after that tick. -/
def afterBytes (bytes : List Byte) : State := after (step (onReset bytes))

/-- The two axes with these registers, the intervals at 1000 µs. -/
def axesAt (ampPos ampTgt angPos angTgt : Int) : PerAxis AxisRegs :=
  ⟨⟨wrap32 ampPos, wrap32 ampTgt, 1000#32, 1000#32, true, 0#32⟩, ⟨wrap32 angPos, wrap32 angTgt, 1000#32, 1000#32, true, 0#32⟩⟩

/-- The reset state with those axes at now = 1000. -/
def stepping (pos tgt : Int) : State := { State.reset with axes := axesAt pos tgt 0 0, now := 1000#32 }

/-- Calibrated as in P1, with an encoder count and a position of ANG. -/
def correcting (corrEn : Bool) (enc pos : Int) : State :=
  { State.reset with
    cal := ⟨1000#32, 0x40000000#32, 20#32, 1020#32, 1600#32, 400#32, true, false⟩
    corrEn := corrEn, enc := wrap32 enc, axes := axesAt 0 0 pos 8, now := 1000#32 }

/-- A waypoint with one value in every field. -/
def flat (v : Int) : Waypoint := ⟨wrap32 v, wrap32 v, wrap32 v, wrap32 v, wrap32 v⟩

/-- Three waypoints queued: the queue of TC is full. -/
def fullQueue : State := { State.reset with queue := ⟨[flat 1, flat 2, flat 3, flat 0], 0, 3⟩ }

/-- The four switches with a count for the zero and for the max switches. -/
def switchesAt (zeros maxes : Nat) : PerSwitch SwitchRegs :=
  ⟨⟨zeros, true⟩, ⟨maxes, true⟩, ⟨zeros, true⟩, ⟨maxes, true⟩⟩

/-- In a mode, with the motors enabled, at now = 1000. -/
def inMode (m : Mode) : State := { State.reset with mode := m, motor := ⟨true, 0#32⟩, now := 1000#32 }

/-! ### The checks refuse (spec/00_scope.md R8, spec/30_encoding.md R114) -/

theorem test_tc_valid : Config.tc.Valid := by decide +kernel

theorem test_refuses_queueN_low : ¬ (tcWith fun c => { c with queueN := 1 }).Valid := by decide +kernel
theorem test_refuses_queueN_high : ¬ (tcWith fun c => { c with queueN := 2 ^ 31 + 1 }).Valid := by decide +kernel
theorem test_refuses_maxSpeed_low : ¬ (tcWith fun c => { c with maxSpeed := 0 }).Valid := by decide +kernel
theorem test_refuses_maxSpeed_high : ¬ (tcWith fun c => { c with maxSpeed := 1000001 }).Valid := by decide +kernel
theorem test_refuses_debounceK_low : ¬ (tcWith fun c => { c with debounceK := 0 }).Valid := by decide +kernel
theorem test_refuses_debounceK_high : ¬ (tcWith fun c => { c with debounceK := 256 }).Valid := by decide +kernel
theorem test_refuses_equal_frame_bytes : ¬ (tcWith fun c => { c with frameEnd := 0x3C#8 }).Valid := by decide +kernel
theorem test_refuses_frameBufLen : ¬ (tcWith fun c => { c with frameBufLen := 27 }).Valid := by decide +kernel
theorem test_refuses_outBufLen : ¬ (tcWith fun c => { c with outBufLen := 94 }).Valid := by decide +kernel
theorem test_refuses_equal_tags : ¬ (tcWith fun c => { c with tagAddPosition := 0#32 }).Valid := by decide +kernel
theorem test_refuses_travel_zero : ¬ (tcWith fun c => { c with travelMm := 0#32 }).Valid := by decide +kernel
theorem test_refuses_travel_negative : ¬ (tcWith fun c => { c with travelMm := 0xC0000000#32 }).Valid := by
  decide +kernel
theorem test_refuses_travel_infinite : ¬ (tcWith fun c => { c with travelMm := 0x7F800000#32 }).Valid := by
  decide +kernel
theorem test_refuses_offset_nan : ¬ (tcWith fun c => { c with offsetMm := 0x7FC00000#32 }).Valid := by decide +kernel
theorem test_refuses_penSettleUs : ¬ (tcWith fun c => { c with penSettleUs := 2 ^ 31 }).Valid := by decide +kernel
theorem test_refuses_idleDisableUs : ¬ (tcWith fun c => { c with idleDisableUs := 2 ^ 31 }).Valid := by decide +kernel
theorem test_refuses_stepPulseUs : ¬ (tcWith fun c => { c with stepPulseUs := 0 }).Valid := by decide +kernel

/-- R114 (a): the field of V-FR-6 holds three consecutive end bytes. -/
theorem test_refuses_payload_with_end_run : ¬ (Instr.setMode 0x3E3E3E00#32).WellFormed Config.tc := by decide +kernel

/-- R114 (b): the payload of V-FR-7 ends in an end byte. -/
theorem test_refuses_payload_ending_in_end : ¬ (Instr.setMode 0x3E000000#32).WellFormed Config.tc := by decide +kernel

/-- R114 (c): 33 bytes do not fit 32. -/
theorem test_refuses_long_payload : ¬ Deliverable Config.tc (List.replicate 33 0#8) := by decide +kernel

/-- R114 (d), (e): a gap with a start run, and one that ends in a start byte. -/
theorem test_refuses_gap_with_start_run : ¬ CleanGap Config.tc [0x3C#8, 0x3C#8, 0x3C#8, 0x41#8] := by decide +kernel
theorem test_refuses_gap_ending_in_start : ¬ CleanGap Config.tc [0x41#8, 0x3C#8] := by decide +kernel

/-- HOME of P2 is well formed. -/
theorem test_home_wellFormed : (Instr.setMode 1#32).WellFormed Config.tc := by decide +kernel

/-! ### Decoding: the frames the spec writes out -/

/-- V-GS-1. -/
theorem test_decode_getStatus : decode Config.tc [0x00#8, 0x00#8, 0x00#8, 0x00#8] = .ok .getStatus := by
  decide +kernel

/-- HOME, P2. -/
theorem test_decode_setMode :
    decode Config.tc [0x01#8, 0x00#8, 0x00#8, 0x00#8, 0x01#8, 0x00#8, 0x00#8, 0x00#8] = .ok (.setMode 1#32) := by
  decide +kernel

/-- P1. -/
theorem test_decode_calibrate :
    decode Config.tc
      [0x02#8, 0x00#8, 0x00#8, 0x00#8, 0xE8#8, 0x03#8, 0x00#8, 0x00#8, 0x00#8, 0x00#8, 0x00#8, 0x40#8,
        0x14#8, 0x00#8, 0x00#8, 0x00#8, 0xFC#8, 0x03#8, 0x00#8, 0x00#8, 0x40#8, 0x06#8, 0x00#8, 0x00#8,
        0x90#8, 0x01#8, 0x00#8, 0x00#8] =
      .ok (.calibrate 1000#32 0x40000000#32 20#32 1020#32 1600#32 400#32) := by decide +kernel

/-- CORRON, P1. -/
theorem test_decode_setAngleCorr :
    decode Config.tc [0x03#8, 0x00#8, 0x00#8, 0x00#8, 0x01#8, 0x00#8, 0x00#8, 0x00#8] = .ok (.setAngleCorr 1#32) := by
  decide +kernel

/-- The first waypoint of P3. -/
theorem test_decode_addPos :
    decode Config.tc
      [0x04#8, 0x00#8, 0x00#8, 0x00#8, 0x03#8, 0x00#8, 0x00#8, 0x00#8, 0x02#8, 0x00#8, 0x00#8, 0x00#8,
        0x5A#8, 0x00#8, 0x00#8, 0x00#8, 0xE8#8, 0x03#8, 0x00#8, 0x00#8, 0xF4#8, 0x01#8, 0x00#8, 0x00#8,
        0x77#8, 0x00#8, 0x00#8, 0x00#8] =
      .ok (.addPos 3#32 2#32 90#32 1000#32 500#32 119#32) := by decide +kernel

/-- V-ER-3 to V-ER-5, V-FR-10 and V-UC-2: what is no command. -/
theorem test_decode_rejects :
    decode Config.tc [] = .error (.short none) ∧
    decode Config.tc [0x01#8, 0x00#8] = .error (.short none) ∧
    decode Config.tc [0x01#8, 0x00#8, 0x00#8, 0x00#8] = .error (.short (some 1#32)) ∧
    decode Config.tc [0x04#8, 0x00#8, 0x00#8, 0x00#8, 0x01#8, 0x00#8, 0x00#8, 0x00#8] = .error (.short (some 4#32)) ∧
    decode Config.tc [0x09#8, 0x00#8, 0x00#8, 0x00#8, 0x01#8, 0x00#8, 0x00#8, 0x00#8, 0x02#8, 0x00#8, 0x00#8, 0x00#8]
      = .error (.unknownTag 9#32) := by decide +kernel

/-- DRAW and SETMODE -1 as frames (P3, R119). -/
theorem test_encode_frame :
    encodeFrame Config.tc (.setMode 3#32) =
      [0x3C#8, 0x3C#8, 0x3C#8, 0x01#8, 0x00#8, 0x00#8, 0x00#8, 0x03#8, 0x00#8, 0x00#8, 0x00#8, 0x3E#8, 0x3E#8, 0x3E#8] ∧
    encode Config.tc (.setMode (wrap32 (-1))) =
      [0x01#8, 0x00#8, 0x00#8, 0x00#8, 0xFF#8, 0xFF#8, 0xFF#8, 0xFF#8] := by decide +kernel

/-- A row of the opcode table placed for the next step runs as the first command after reset. -/
theorem test_withFetchWord :
    (after (step (State.reset.withFetchWord 32 0x00000003))).out.diag = [⟨some 3#32, .none⟩] ∧
    (after (step (State.reset.withFetchWord 32 0x00000004))).queue.tail = 1 := by decide +kernel

/-! ### The commands, each in one tick from reset -/

/-- V-GS-1: the dump and OK, the first byte sent in the same tick. -/
theorem test_getStatus :
    (afterBytes [0x3C#8, 0x3C#8, 0x3C#8, 0#8, 0#8, 0#8, 0#8, 0x3E#8, 0x3E#8, 0x3E#8]).out.outByte = some 0#8 ∧
    (afterBytes [0x3C#8, 0x3C#8, 0x3C#8, 0#8, 0#8, 0#8, 0#8, 0x3E#8, 0x3E#8, 0x3E#8]).obuf =
      List.replicate 19 0#8 ++ [0xE8#8, 0x03#8] ++ List.replicate 10 0#8 ++ [0xE8#8, 0x03#8] ++
        List.replicate 58 0#8 ++ [0x4F#8, 0x4B#8, 0x0A#8] := by decide +kernel

/-- V-SM-2 and V-SM-1: a code that is no mode, and Drawing with an empty queue, which returns to Idle in the same
tick with the motors enabled (V-SV-16). -/
theorem test_setMode :
    (afterBytes (encodeFrame Config.tc (.setMode (wrap32 (-1))))).out.diag = [⟨some 1#32, .badMode⟩] ∧
    (afterBytes (encodeFrame Config.tc (.setMode 4#32))).obuf = [0x41#8, 0x49#8, 0x4C#8, 0x0A#8] ∧
    (afterBytes (encodeFrame Config.tc (.setMode 3#32))).motor.en = true ∧
    (afterBytes (encodeFrame Config.tc (.setMode 3#32))).mode = .idle := by decide +kernel

/-- V-SV-1: the switches confirmed at entry end a homing run in the tick that starts it. -/
theorem test_setMode_homing_confirmed :
    (after (step { State.reset with
      sw := ⟨⟨3, true⟩, ⟨0, false⟩, ⟨3, true⟩, ⟨0, false⟩⟩
      ticks := [⟨3000#32, encodeFrame Config.tc (.setMode 1#32), ⟨true, false, true, false⟩, 0#32, true⟩] })).motor
      = ⟨true, 3000#32⟩ := by decide +kernel

/-- V-CA-1. -/
theorem test_calibrate :
    (afterBytes (encodeFrame Config.tc (.calibrate 1000#32 0x40000000#32 20#32 1020#32 1600#32 400#32))).cal =
      ⟨1000#32, 0x40000000#32, 20#32, 1020#32, 1600#32, 400#32, true, false⟩ := by decide +kernel

/-- V-CA-2: no range check, NaN bits stored as given. -/
theorem test_calibrate_unchecked :
    (afterBytes (encodeFrame Config.tc (.calibrate (wrap32 (-5)) 0x7FC00000#32 0#32 (wrap32 (-1)) 0#32 0#32))).cal =
      ⟨0xFFFFFFFB#32, 0x7FC00000#32, 0#32, 0xFFFFFFFF#32, 0#32, 0#32, true, false⟩ := by decide +kernel

/-- V-AC-9. -/
theorem test_setAngleCorr :
    (afterBytes (encodeFrame Config.tc (.setAngleCorr 7#32))).corrEn = true ∧
    (afterBytes (encodeFrame Config.tc (.setAngleCorr (wrap32 (-1))))).corrEn = true ∧
    (after (exec (.setAngleCorr 0#32) (correcting true 0 0))).corrEn = false := by decide +kernel

/-- V-AP-1, V-AP-2. -/
theorem test_addPos :
    (afterBytes (encodeFrame Config.tc (.addPos 100#32 200#32 90#32 500#32 500#32 283#32))).queue =
      ⟨[⟨100#32, 200#32, 90#32, 500#32, 500#32⟩, flat 0, flat 0, flat 0], 0, 1⟩ ∧
    (afterBytes (encodeFrame Config.tc (.addPos 100#32 200#32 90#32 500#32 500#32 284#32))).out.diag =
      [⟨some 4#32, .checksum⟩] ∧
    (afterBytes (encodeFrame Config.tc (.addPos 100#32 200#32 90#32 500#32 500#32 284#32))).queue.tail = 0 := by
  decide +kernel

/-- V-ER-1, V-ER-2: the checksum goes before the room. -/
theorem test_addPos_full :
    (after (exec (.addPos 4#32 4#32 4#32 4#32 4#32 99#32) fullQueue)).out.diag = [⟨some 4#32, .checksum⟩] ∧
    (after (exec (.addPos 4#32 4#32 4#32 4#32 4#32 20#32) fullQueue)).out.diag = [⟨some 4#32, .queueFull⟩] := by
  decide +kernel

/-! ### The framer -/

/-- V-FR-1, V-FR-3, V-FR-9: false terminators and start bytes inside a frame are data. -/
theorem test_framer_data :
    (afterBytes [0x3C#8, 0x3C#8, 0x3C#8, 0x09#8, 0x3E#8, 0#8, 0#8, 0x3E#8, 0x3E#8, 0x01#8, 0x3E#8, 0x3E#8, 0x3E#8]).out.diag
      = [⟨some 0x3E09#32, .unknownTag⟩] ∧
    (afterBytes [0x3C#8, 0x3C#8, 0x3C#8, 0x3C#8, 0#8, 0#8, 0#8, 0x3E#8, 0x3E#8, 0x3E#8]).out.diag
      = [⟨some 0x3C#32, .unknownTag⟩] ∧
    (afterBytes [0x3C#8, 0x3C#8, 0x3C#8, 0x03#8, 0x3C#8, 0x3C#8, 0x3C#8, 0x01#8, 0#8, 0#8, 0#8, 0x3E#8, 0x3E#8, 0x3E#8]).out.diag
      = [⟨some 0x3C3C3C03#32, .unknownTag⟩] := by decide +kernel

/-- V-FR-2, V-FR-4, V-FR-6, V-FR-10: hunting, a frame cut by its own field, an empty frame. -/
theorem test_framer_hunting :
    (afterBytes [0x3C#8, 0x3C#8, 0x41#8, 0x3C#8, 0x3C#8, 0x3C#8, 0#8, 0#8, 0#8, 0#8, 0x3E#8, 0x3E#8, 0x3E#8]).out.diag
      = [⟨some 0#32, .none⟩] ∧
    (afterBytes [0x3E#8, 0x3E#8, 0x3E#8, 0x3C#8, 0x3C#8, 0x3C#8, 0x01#8, 0#8, 0#8, 0#8, 0#8, 0#8, 0#8, 0#8, 0x3E#8, 0x3E#8, 0x3E#8]).out.diag
      = [⟨some 1#32, .none⟩] ∧
    (afterBytes (encodeFrame Config.tc (.setMode 0x3E3E3E00#32))).out.diag = [⟨some 1#32, .short⟩] ∧
    (afterBytes [0x3C#8, 0x3C#8, 0x3C#8, 0x3E#8, 0x3E#8, 0x3E#8]).out.diag = [⟨none, .short⟩] := by decide +kernel

/-- V-FR-11 to V-FR-13: exactly FRAME_BUF_LEN, one byte more, and an overflow while re-emitting. -/
theorem test_framer_overflow :
    (afterBytes (frame Config.tc (0x09#8 :: List.replicate 31 0#8))).out.diag = [⟨some 9#32, .unknownTag⟩] ∧
    (afterBytes (frame Config.tc (0x09#8 :: List.replicate 32 0#8))).out.diag = [⟨none, .overflow⟩] ∧
    (afterBytes (frame Config.tc (0x09#8 :: List.replicate 31 0#8 ++ [0x3E#8, 0x3E#8, 0#8]))).out.diag
      = [⟨none, .overflow⟩] := by decide +kernel

/-- V-FR-14: an open frame waits. -/
theorem test_framer_open :
    (afterBytes [0x3C#8, 0x3C#8, 0x3C#8, 0#8, 0#8]).framer.plen = 2 ∧
    (afterBytes [0x3C#8, 0x3C#8, 0x3C#8, 0#8, 0#8]).framer.st = .inFrame ∧
    (afterBytes [0x3C#8, 0x3C#8, 0x3C#8, 0#8, 0#8]).out.consumed = 5 := by decide +kernel

/-- V-BP-1, tick 0: the second frame is held, and no byte leaves while the transport takes none. -/
theorem test_backpressure :
    (after (step { State.reset with
      ticks := [{ TickIn.plain 0#32 with
        inBytes := encodeFrame Config.tc .getStatus ++ encodeFrame Config.tc .getStatus, outReady := false }] })).framer.st
      = .pending ∧
    (after (step { State.reset with
      ticks := [{ TickIn.plain 0#32 with
        inBytes := encodeFrame Config.tc .getStatus ++ encodeFrame Config.tc .getStatus, outReady := false }] })).obuf.length
      = 95 := by decide +kernel

/-- V-CS-1 to V-CS-9. -/
theorem test_checksum :
    checksum 100#32 200#32 90#32 500#32 500#32 = 283 ∧
    checksum 3#32 2#32 90#32 1000#32 500#32 = 119 ∧
    checksum (wrap32 (-5)) (wrap32 (-128)) 0#32 0#32 0#32 = -10 ∧
    checksum 122#32 122#32 122#32 122#32 122#32 = 610 ∧
    checksum (wrap32 (-122)) (wrap32 (-122)) (wrap32 (-122)) (wrap32 (-122)) (wrap32 (-122)) = -610 ∧
    checksum 5#32 0#32 0#32 0#32 0#32 = 5 ∧ checksum 128#32 0#32 0#32 0#32 0#32 = 5 ∧
    checksum (wrap32 (-118)) 0#32 0#32 0#32 0#32 = -118 ∧
    checksum 0x7FFFFFFF#32 0x80000000#32 0#32 0#32 0#32 = -1 := by decide +kernel

/-! ### The axes, the switches, the mapper, the queue -/

/-- V-ST-1 to V-ST-10: v, SPD, IVL. -/
theorem test_setSpeed :
    ∀ p ∈ ([(0, 1, 1000000), (-5, 1, 1000000), (-2147483648, 1, 1000000), (1, 1, 1000000), (3, 3, 333333),
        (7, 7, 142857), (999, 999, 1001), (1000, 1000, 1000), (1001, 1000, 1000), (2147483647, 1000, 1000)] :
        List (Int × Nat × Nat)),
      (setSpeed .amp (wrap32 p.1) State.reset).axes.amp.spd.toNat = p.2.1 ∧
      (setSpeed .amp (wrap32 p.1) State.reset).axes.amp.ivl.toNat = p.2.2 := by decide +kernel

/-- V-ST-11 to V-ST-14: LAST, now, ready. -/
theorem test_ready :
    ∀ p ∈ ([(0, 999, false), (0, 1000, true), (4294966796, 500, true), (4294966796, 499, false)] :
        List (Nat × Nat × Bool)),
      decide (AxisRegs.ready (BitVec.ofNat 32 p.2.1) ⟨0#32, 0#32, 1000#32, 1000#32, true, BitVec.ofNat 32 p.1⟩) = p.2.2 := by
  decide +kernel

/-- V-ST-15 to V-ST-18 and V-ST-22: POS, TGT, then the pulse's direction and POS after. -/
theorem test_stepTowardTarget :
    (stepTowardTarget .amp (stepping 0 2)).axes.amp.pos = 1#32 ∧
    (stepTowardTarget .amp (stepping 5 3)).axes.amp.pos = 4#32 ∧
    (stepTowardTarget .amp (stepping 5 3)).axes.amp.dir = false ∧
    (stepTowardTarget .amp (stepping 0 (-1))).axes.amp.pos = 0xFFFFFFFF#32 ∧
    stepTowardTarget .amp (stepping 7 7) = stepping 7 7 ∧
    (stepTowardTarget .amp (stepping (-2147483648) 2147483647)).axes.amp.pos = 0x80000001#32 := by decide +kernel

/-- V-ST-20, V-ST-21. -/
theorem test_singleStepAtSpeed :
    (singleStepAtSpeed .amp false (stepping 0 0)).axes.amp.pos = 0xFFFFFFFF#32 ∧
    (singleStepAtSpeed .amp false (stepping 0 0)).axes.amp.tgt = 0#32 ∧
    (singleStepAtSpeed .amp true (stepping 2147483647 0)).axes.amp.pos = 0x80000000#32 := by decide +kernel

/-- V-DB-1, V-DB-2, V-DB-6. -/
theorem test_debounce :
    [true, true, false, true, true, true].foldl (fun r b => SwitchRegs.poll Config.tc b r) ⟨0, false⟩ = ⟨3, true⟩ ∧
    [true, true, true, true, true].foldl (fun r b => SwitchRegs.poll Config.tc b r) ⟨0, false⟩ = ⟨3, true⟩ ∧
    [true, false].foldl (fun r b => SwitchRegs.poll Config.tc b r) ⟨0, false⟩ = ⟨0, false⟩ ∧
    [false, false, false].foldl (fun r b => SwitchRegs.poll (tcWith fun c => { c with swActiveLevel := false }) b r)
      ⟨0, false⟩ = ⟨3, false⟩ := by decide +kernel

/-- V-MP-1 to V-MP-8, V-MP-11 to V-MP-13: linearMap(x, 0, in_hi, 0, out_hi). -/
theorem test_linearMap :
    ∀ p ∈ ([(100, 400, 1600, 400), (8, 1600, 400, 2), (-1, 400, 1600, -4), (-3, 1600, 400, 0), (401, 1600, 400, 100),
        (2147483647, 400, 1600, -4), (5, 0, 1600, 0), (1, 3, 4, 1), (1, 4, 3, 0), (-1, 3, 10, -3),
        (100, -400, 1600, -400), (8, 0, 400, 0)] : List (Int × Int × Int × Int)),
      (linearMap (wrap32 p.1) 0#32 (wrap32 p.2.1) 0#32 (wrap32 p.2.2.1)).toInt = p.2.2.2 := by decide +kernel

/-- V-MP-14. -/
theorem test_encoder_wraps :
    (accumulateEncoder 1#32 { State.reset with enc := 0x7FFFFFFF#32 }).enc = 0x80000000#32 := by decide +kernel

/-- V-Q-3, V-Q-6, V-Q-7, V-Q-8. -/
theorem test_queue :
    after (tryEnqueue (flat 9) fullQueue) = fullQueue ∧
    (tryDequeue { fullQueue with queue := ⟨[flat 1, flat 2, flat 3, flat 0], 3, 1⟩ }).queue.head = 0 ∧
    (after (tryEnqueue (flat 9) { fullQueue with queue := ⟨[flat 1, flat 2, flat 3, flat 0], 2, 3⟩ })).queue =
      ⟨[flat 1, flat 2, flat 3, flat 9], 2, 0⟩ ∧
    qCount { fullQueue with queue := ⟨[flat 1, flat 2, flat 3, flat 0], 3, 1⟩ } = 2 := by decide +kernel

/-! ### The corrector and the sequencer -/

/-- V-AC-1 to V-AC-5: CORR_EN, ENC, POS[ANG], the result. -/
theorem test_arrivalCheck :
    ∀ p ∈ ([(true, 2, 8, .complete), (true, 2, 9, .complete), (true, 2, 10, .goOn), (true, 1, 8, .goOn),
        (false, 1, 8, .complete)] : List (Bool × Int × Int × Verdict)),
      (arrivalCheck (correcting p.1 p.2.1 p.2.2.1)).2 = p.2.2.2 := by decide +kernel

/-- V-AC-7. -/
theorem test_correctionStep :
    ((correctionStep (correcting true 1 8)).1.out.pulses.map fun p => (p.axis, p.dir)) = [(.ang, true)] ∧
    ((correctionStep (correcting true 3 8)).1.out.pulses.map fun p => (p.axis, p.dir)) = [(.ang, false)] ∧
    (correctionStep (correcting true 2 9)).1.axes.ang.pos = 8#32 := by decide +kernel

/-- V-SV-4 to V-SV-10: TRAVEL_MM, OFFSET_MM, TRAVEL, then SPMM, MIN_AMP, MAX_AMP. -/
theorem test_deriveAmp :
    ∀ p ∈ ([(0x40000000, 0x41200000, 12, 0x40C00000, 60, 72), (0x40000000, 0x41200000, 1000, 0x43FA0000, 5000, 6000),
        (0x40000000, 0x41200000, 1001, 0x43FA4000, 5005, 6006), (0x40400000, 0x41200000, 1000, 0x43A6AAAB, 3333, 4333),
        (0x40400000, 0x40400000, 5, 0x3FD55555, 5, 10), (0x40000000, 0x41200000, 0, 0, 0, 0),
        (0x3F333333, 0x3F333333, 3, 0x40892492, 2, 5)] : List (Nat × Nat × Nat × Nat × Nat × Nat)),
      let s := deriveAmp { State.reset with
        cfg := tcWith fun c => { c with travelMm := BitVec.ofNat 32 p.1, offsetMm := BitVec.ofNat 32 p.2.1 }
        sweep := ⟨.max, ⟨true, true⟩, ⟨false, false⟩, ⟨BitVec.ofNat 32 p.2.2.1, 0#32⟩⟩ }
      s.cal.travel.toNat = p.2.2.1 ∧ s.cal.spmm.toNat = p.2.2.2.1 ∧ s.cal.minAmp.toNat = p.2.2.2.2.1 ∧
        s.cal.maxAmp.toNat = p.2.2.2.2.2 := by decide +kernel

/-- V-SV-11: a pen of 92 is within tolerance of 90, one of 93 is not. -/
theorem test_penUpdate :
    (penUpdate 92#32 { State.reset with draw := ⟨false, false, false, 0#32, 90#32, true⟩ }).out.penCmd = none ∧
    (penUpdate 93#32 { State.reset with draw := ⟨false, false, false, 0#32, 90#32, true⟩ }).out.penCmd = some 93#32 ∧
    (penUpdate 87#32 { State.reset with draw := ⟨false, false, false, 0#32, 90#32, true⟩ }).out.penCmd = some 87#32 := by
  decide +kernel

/-- V-SV-20: the dwell across the wrap of the time base. -/
theorem test_dwell :
    (motorEnableUpdate { State.reset with motor := ⟨true, 4294967000#32⟩, now := 9999703#32 }).motor.en = true ∧
    (motorEnableUpdate { State.reset with motor := ⟨true, 4294967000#32⟩, now := 9999704#32 }).motor.en = false := by
  decide +kernel

/-- A tick of P2 (tick 5): both axes step backward, the switches not yet confirmed. -/
theorem test_homing_tick :
    ((after (step { inMode .homing with
      axes := axesAt (-4) 0 (-4) 0
      sw := ⟨⟨1, true⟩, ⟨0, false⟩, ⟨0, false⟩, ⟨0, false⟩⟩
      ticks := [⟨5000#32, [], ⟨true, false, true, false⟩, wrap32 (-1), true⟩] })).out.pulses.map fun p => (p.axis, p.dir))
      = [(.amp, false), (.ang, false)] := by decide +kernel

/-- P2 before the mode step of tick 6: AZ just confirmed, GZ one poll short, both axes ready. -/
def p2tick6 : State :=
  { inMode .homing with
    now := 6000#32, enc := wrap32 (-5), axes := axesAt (-5) 0 (-5) 0
    cal := ⟨1000#32, 0x40000000#32, 20#32, 1020#32, 1600#32, 400#32, true, false⟩
    sw := ⟨⟨3, true⟩, ⟨0, false⟩, ⟨2, true⟩, ⟨0, false⟩⟩ }

/-- P2 before the mode step of tick 7: AMP homed before, GZ just confirmed. -/
def p2tick7 : State :=
  { p2tick6 with
    now := 7000#32, enc := wrap32 (-6), axes := axesAt 20 20 (-6) 0, sw := ⟨⟨3, true⟩, ⟨0, false⟩, ⟨3, true⟩, ⟨0, false⟩⟩
    sweep := ⟨.home, ⟨true, false⟩, ⟨false, false⟩, ⟨0#32, 0#32⟩⟩ }

/-- P2, tick 6 (V-SV-2): AMP snaps while ANG steps backward. -/
theorem test_homing_mixed :
    ((after (modeStep p2tick6)).out.pulses.map fun p => (p.axis, p.dir)) = [(.ang, false)] ∧
    (after (modeStep p2tick6)).axes.amp.pos = 20#32 ∧ (after (modeStep p2tick6)).axes.ang.pos = wrap32 (-6) ∧
    (after (modeStep p2tick6)).sweep.homed = ⟨true, false⟩ ∧ (after (modeStep p2tick6)).enc = wrap32 (-5) := by
  decide +kernel

/-- P2, tick 7: ANG snaps, the encoder count is reset, and homing ends. -/
theorem test_homing_ends :
    (after (modeStep p2tick7)).out.pulses = [] ∧ (after (modeStep p2tick7)).axes.amp.pos = 20#32 ∧
    (after (modeStep p2tick7)).axes.ang.pos = 0#32 ∧ (after (modeStep p2tick7)).enc = 0#32 ∧
    (after (modeStep p2tick7)).mode = .idle ∧ (after (modeStep p2tick7)).motor = ⟨true, 7000#32⟩ := by decide +kernel

/-- P4 before the mode step of tick 18: AX just confirmed, GX one poll short. -/
def p4tick18 : State :=
  { inMode .calibrating with
    now := 18000#32, enc := 6#32, axes := axesAt 12 0 12 0
    sw := ⟨⟨0, false⟩, ⟨3, true⟩, ⟨0, false⟩, ⟨1, true⟩⟩
    sweep := ⟨.max, ⟨true, true⟩, ⟨false, false⟩, ⟨12#32, 12#32⟩⟩ }

/-- P4 before the mode step of tick 20: AMP derived before, GX just confirmed. -/
def p4tick20 : State :=
  { p4tick18 with
    now := 20000#32, enc := 7#32, axes := axesAt 12 0 14 0
    cal := ⟨12#32, 0x40C00000#32, 60#32, 72#32, 0#32, 0#32, false, true⟩
    sw := ⟨⟨0, false⟩, ⟨3, true⟩, ⟨0, false⟩, ⟨3, true⟩⟩
    sweep := ⟨.max, ⟨true, true⟩, ⟨true, false⟩, ⟨12#32, 14#32⟩⟩ }

/-- P4, tick 18: AMP is derived while ANG steps forward and is counted. -/
theorem test_max_mixed :
    ((after (modeStep p4tick18)).out.pulses.map fun p => (p.axis, p.dir)) = [(.ang, true)] ∧
    (after (modeStep p4tick18)).cal = ⟨12#32, 0x40C00000#32, 60#32, 72#32, 0#32, 0#32, false, false⟩ ∧
    (after (modeStep p4tick18)).sweep = ⟨.max, ⟨true, true⟩, ⟨true, false⟩, ⟨12#32, 13#32⟩⟩ := by decide +kernel

/-- P4, tick 20: ANG is derived, what AMP derived stays, and Homing is entered. -/
theorem test_max_ends :
    (after (modeStep p4tick20)).out.pulses = [] ∧ (after (modeStep p4tick20)).mode = .homing ∧
    (after (modeStep p4tick20)).cal = ⟨12#32, 0x40C00000#32, 60#32, 72#32, 14#32, 7#32, true, false⟩ ∧
    (after (modeStep p4tick20)).sweep = ⟨.max, ⟨false, false⟩, ⟨true, true⟩, ⟨12#32, 14#32⟩⟩ := by decide +kernel

/-- P4, tick 5: both zero switches confirmed in the first half of Calibrating. -/
theorem test_calibrating_turns :
    (after (modeStep { p2tick7 with
      mode := .calibrating, sweep := ⟨.home, ⟨true, false⟩, ⟨true, true⟩, ⟨5#32, 6#32⟩⟩ })).sweep =
      ⟨.max, ⟨true, true⟩, ⟨false, false⟩, ⟨0#32, 0#32⟩⟩ := by decide +kernel

/-! ### Witnesses: decoding, encoding and framing -/

/-- A payload as the framer leaves it pending at reset. -/
def pendingPayload (bytes : List Byte) : State :=
  { State.reset with framer := ⟨.pending, 0, 0, Memory.writeFrom [] 0 bytes, bytes.length, false⟩ }

/-- The lengths at which the answer changes: 3 and 4, and one below the required length. -/
theorem witness_DecodeInvertsEncode :
    Config.tc.Valid ∧ 3 < (Instr.setMode 1#32).requiredLength ∧ 4 < (Instr.setMode 1#32).requiredLength ∧
    7 < (Instr.setMode 1#32).requiredLength ∧ 27 < (Instr.calibrate 0 0 0 0 0 0).requiredLength := by decide +kernel

theorem witness_DecodedPayloadIsEncoding :
    decode Config.tc [0x03#8, 0#8, 0#8, 0#8, 0xFF#8, 0#8, 0#8, 0#8, 0xAA#8] = .ok (.setAngleCorr 255#32) := by
  decide +kernel

theorem witness_UnrecognizedTagsExactly :
    decode Config.tc [0x05#8, 0#8, 0#8, 0#8] = .error (.unknownTag 5#32) := by decide +kernel

/-- The payload of V-FR-1, after a gap. -/
theorem witness_FramerDeliversPayload :
    Config.tc.Valid ∧ State.reset.framer.pbuf.wf = true ∧ State.reset.framer.st = .hunt ∧
    State.reset.framer.srun = 0 ∧ CleanGap Config.tc [0x3C#8, 0x3C#8, 0x41#8] ∧
    Deliverable Config.tc [0x09#8, 0x3E#8, 0#8, 0#8, 0x3E#8, 0x3E#8, 0x01#8] ∧
    Deliverable Config.tc (List.replicate 32 0#8) := by decide +kernel

theorem witness_OverlongFrameOverflows :
    Config.tc.Valid ∧ State.reset.framer.st = .hunt ∧ State.reset.framer.srun = 0 ∧
    hasTripleRun Config.tc.frameEnd (List.replicate 33 0#8) = false ∧
    (List.replicate 33 0#8).length = Config.tc.frameBufLen + 1 ∧
    (List.replicate 33 0#8).getLast? ≠ some Config.tc.frameEnd := by decide +kernel

theorem witness_CommandArrivesByLink :
    State.reset.cfg.Valid ∧ State.reset.framer.InRange State.reset.cfg ∧ State.reset.framer.st = .hunt ∧
    State.reset.framer.srun = 0 ∧ (Instr.setMode 1#32).WellFormed State.reset.cfg ∧ replyRoom State.reset := by
  decide +kernel

theorem witness_InputSplitsAnywhere :
    ∃ u, inputLoop [0x3C#8, 0x3C#8, 0x3C#8, 0x01#8] State.reset = .next u ∧ u.framer.st ≠ .pending :=
  ⟨after (inputLoop [0x3C#8, 0x3C#8, 0x3C#8, 0x01#8] State.reset), next_after (by decide +kernel), by decide +kernel⟩

/-! ### Witnesses: reset, the invariant, the step -/

theorem witness_ResetValues : Config.tc.Valid := test_tc_valid

theorem witness_ResetSatisfiesInv : Config.tc.Valid := test_tc_valid

/-- Homing, both axes ready, one tick scheduled. -/
def homingStart : State := { inMode .homing with out := { TickOut.reset with motorEnOut := true }, ticks := [TickIn.plain 1000#32] }

theorem witness_StepNeverStops : Inv homingStart := inv_of (by decide +kernel) (by decide +kernel) (by decide +kernel)

theorem witness_StepKeepsInv : ∃ t, Inv homingStart ∧ step homingStart = .next t :=
  ⟨after (step homingStart), witness_StepNeverStops, next_after (by decide +kernel)⟩

/-- A tick that emits two pulses. -/
theorem witness_TickOutputIsSafe :
    ∃ t, Inv homingStart ∧ tick (TickIn.plain 1000#32) homingStart = .next t ∧ t.out.pulses.length = 2 :=
  ⟨after (tick (TickIn.plain 1000#32) homingStart), witness_StepNeverStops, next_after (by decide +kernel),
    by decide +kernel⟩

theorem witness_ConfigurationIsFixed : ∃ t, step homingStart = .next t :=
  ⟨after (step homingStart), next_after (by decide +kernel)⟩

/-- HOME pending, with exactly 95 bytes of OBUF free. -/
def homePending : State :=
  { pendingPayload (encode Config.tc (.setMode 1#32)) with
    obuf := List.replicate 33 0#8, ticks := [TickIn.plain 0#32] }

theorem witness_StepRunsPendingCommand :
    homePending.ticks = TickIn.plain 0#32 :: [] ∧ homePending.framer.st = .pending ∧ homePending.framer.ovf = false ∧
    replyRoom homePending ∧ decode homePending.cfg homePending.framer.payload = .ok (.setMode 1#32) := by decide +kernel

theorem witness_NoTickNoChange : State.reset.ticks = [] := rfl

/-- A byte the transport held, all taken; and a tick that holds the frame and leaves the bytes behind it. -/
theorem witness_TransportKeepsUnconsumed :
    (∃ u, ({ homingStart with rx := [0x3C#8] } : State).ticks = TickIn.plain 1000#32 :: [] ∧
      step { homingStart with rx := [0x3C#8] } = .next u ∧ u.out.consumed = 1) ∧
    (∃ u, ({ homePending with obuf := List.replicate 34 0#8, rx := [0x3C#8] } : State).ticks = TickIn.plain 0#32 :: [] ∧
      step { homePending with obuf := List.replicate 34 0#8, rx := [0x3C#8] } = .next u ∧ u.out.consumed = 0 ∧
      u.rx = [0x3C#8]) :=
  ⟨⟨after (step { homingStart with rx := [0x3C#8] }), rfl, next_after (by decide +kernel), by decide +kernel⟩,
    ⟨after (step { homePending with obuf := List.replicate 34 0#8, rx := [0x3C#8] }), rfl, next_after (by decide +kernel),
      by decide +kernel, by decide +kernel⟩⟩

/-- A byte to send and an accepting transport; no byte; no acceptance; and a tick that goes on. -/
theorem witness_OutputDrainsInOrder :
    homePending.obuf = 0#8 :: List.replicate 32 0#8 ∧ State.reset.obuf = [] ∧
    (homePending.obuf = [] ∨ false = false) ∧
    ∃ t, tick (TickIn.plain 0#32) homePending = .next t ∧ t.out.outByte = some 0#8 :=
  ⟨by decide +kernel, rfl, .inr rfl, after (tick (TickIn.plain 0#32) homePending), next_after (by decide +kernel),
    by decide +kernel⟩

/-! ### Witnesses: the commands -/

/-- The last state with room for a reply: 33 of 128 bytes held. -/
theorem witness_GetStatusDumps : replyRoom { State.reset with obuf := List.replicate 33 0#8 } := by decide +kernel

theorem witness_SetModeEnters : replyRoom { inMode .drawing with obuf := List.replicate 33 0#8 } := by decide +kernel

/-- The code just above the four, and the one just below. -/
theorem witness_SetModeRejectsBadCode :
    replyRoom State.reset ∧ 4#32 ∉ [0#32, 1#32, 2#32, 3#32] ∧ 0xFFFFFFFF#32 ∉ [0#32, 1#32, 2#32, 3#32] := by
  decide +kernel

theorem witness_CalibrateStoresVerbatim : replyRoom (inMode .calibrating) := by decide +kernel

theorem witness_SetAngleCorrSets : replyRoom (correcting true 2 8) := by decide +kernel

/-- The waypoint of V-AP-1 on an empty queue, and on one with a single slot left. -/
theorem witness_AddPosEnqueues :
    replyRoom State.reset ∧ QueueInRange State.reset ∧
    (100#32).toInt.tmod 123 + (200#32).toInt.tmod 123 + (90#32).toInt.tmod 123 + (500#32).toInt.tmod 123 +
      (500#32).toInt.tmod 123 = (283#32).toInt ∧
    (State.reset.queue.tail + 1) % State.reset.cfg.queueN ≠ State.reset.queue.head ∧
    QueueInRange { fullQueue with queue := ⟨fullQueue.queue.slots, 0, 2⟩ } ∧ (2 + 1) % fullQueue.cfg.queueN ≠ 0 := by
  decide +kernel

/-- V-ER-1 and V-ER-2 on the full queue. -/
theorem witness_AddPosRejections :
    replyRoom fullQueue ∧
    (4#32).toInt.tmod 123 + (4#32).toInt.tmod 123 + (4#32).toInt.tmod 123 + (4#32).toInt.tmod 123 +
      (4#32).toInt.tmod 123 ≠ (99#32).toInt ∧
    (4#32).toInt.tmod 123 + (4#32).toInt.tmod 123 + (4#32).toInt.tmod 123 + (4#32).toInt.tmod 123 +
      (4#32).toInt.tmod 123 = (20#32).toInt ∧
    (fullQueue.queue.tail + 1) % fullQueue.cfg.queueN = fullQueue.queue.head := by decide +kernel

/-- One frame for each clause: overflowed; 3 bytes; the shortest and the longest malformed command; an unknown tag. -/
theorem witness_DispatchOfNoCommand :
    replyRoom State.reset ∧ State.reset.cfg.Valid ∧
    ({ State.reset with framer := ⟨.pending, 0, 0, [], 32, true⟩ } : State).framer.ovf = true ∧
    (pendingPayload [0x01#8, 0#8, 0#8]).framer.payload.length < 4 ∧
    4 < (Instr.setMode 0#32).requiredLength ∧
    (pendingPayload [0x01#8, 0#8, 0#8, 0#8]).framer.payload = (encode Config.tc (.setMode 0#32)).take 4 ∧
    27 < (Instr.calibrate 0 0 0 0 0 0).requiredLength ∧
    (pendingPayload (0x02#8 :: List.replicate 26 0#8)).framer.payload =
      (encode Config.tc (.calibrate 0 0 0 0 0 0)).take 27 ∧
    9#32 ∉ [Config.tc.tagGetStatus, Config.tc.tagSetMode, Config.tc.tagCalibrate, Config.tc.tagSetAngleCorr,
      Config.tc.tagAddPosition] ∧
    (pendingPayload [0x09#8, 0#8, 0#8, 0#8, 0x07#8]).framer.payload = le32 9#32 ++ [0x07#8] := by decide +kernel

/-- A dispatch that answers FAIL, one that answers OK and one that answers a dump and OK. -/
theorem witness_DispatchAnswersOnce :
    ∃ t u v, dispatchFrame (pendingPayload []) = .next t ∧ t.obuf.length = 5 ∧
      dispatchFrame (pendingPayload (encode Config.tc (.setMode 1#32))) = .next u ∧ u.obuf.length = 3 ∧
      dispatchFrame (pendingPayload (encode Config.tc .getStatus)) = .next v ∧ v.obuf.length = 95 :=
  ⟨after (dispatchFrame (pendingPayload [])), after (dispatchFrame (pendingPayload (encode Config.tc (.setMode 1#32)))),
    after (dispatchFrame (pendingPayload (encode Config.tc .getStatus))), next_after (by decide +kernel),
    by decide +kernel, next_after (by decide +kernel), by decide +kernel, next_after (by decide +kernel),
    by decide +kernel⟩

/-- V-CS-7, the same with both signs negative, and zero against 123. -/
theorem witness_ChecksumMissesSuchErrors :
    (0 ≤ (5#32).toInt ∧ 0 ≤ (128#32).toInt) ∧ (128#32).toInt = (5#32).toInt + 123 * 1 ∧
    ((wrap32 (-5)).toInt ≤ 0 ∧ (wrap32 (-128)).toInt ≤ 0) ∧ (wrap32 (-128)).toInt = (wrap32 (-5)).toInt + 123 * (-1) ∧
    (0 ≤ (0#32).toInt ∧ 0 ≤ (123#32).toInt) ∧ (123#32).toInt = (0#32).toInt + 123 * 1 := by decide +kernel

/-! ### Witnesses: the axes, the switches, the mapper, the queue -/

theorem witness_SetSpeedClamps : State.reset.cfg.Valid := test_tc_valid

theorem witness_PacingAcrossWrap : (0 : Nat) < 2 ^ 32 ∧ (999 : Nat) < 2 ^ 32 ∧ (1000 : Nat) < 2 ^ 32 ∧ 2 ^ 32 - 1 < 2 ^ 32 := by
  decide +kernel

/-- At the target; one microsecond early; just in time (V-ST-18, V-ST-19, V-ST-15). -/
theorem witness_StepTowardTargetNears :
    ((stepping 7 7).axes.get .amp).pos = ((stepping 7 7).axes.get .amp).tgt ∧
    ((999#32 : Word) - ((stepping 0 2).axes.get .amp).last).toNat < ((stepping 0 2).axes.get .amp).ivl.toNat ∧
    ((stepping 0 2).axes.get .amp).pos ≠ ((stepping 0 2).axes.get .amp).tgt ∧
    ((stepping 0 2).axes.get .amp).ivl.toNat ≤ ((stepping 0 2).now - ((stepping 0 2).axes.get .amp).last).toNat := by
  decide +kernel

theorem witness_SingleStepMoves :
    ((999#32 : Word) - ((stepping 0 0).axes.get .ang).last).toNat < ((stepping 0 0).axes.get .ang).ivl.toNat ∧
    ((stepping 0 0).axes.get .ang).ivl.toNat ≤ ((stepping 0 0).now - ((stepping 0 0).axes.get .ang).last).toNat := by
  decide +kernel

theorem witness_DebounceNeedsKPolls :
    1 ≤ Config.tc.debounceK ∧ (⟨0, false⟩ : SwitchRegs).cnt = 0 := by decide +kernel

/-- V-MP-10 at the ends of the range, a range that is not a multiple, R166's two examples, and a MAX_ANG below MAX_ENC. -/
theorem witness_MapperRoundTrip :
    0 < (correcting true 0 0).cal.maxEnc.toInt ∧ 0 < (correcting true 0 0).cal.maxAng.toInt ∧
    0 ≤ (0#32).toInt ∧ (400#32).toInt ≤ (correcting true 0 0).cal.maxEnc.toInt ∧
    (correcting true 0 0).cal.maxAng.toInt = (correcting true 0 0).cal.maxEnc.toInt * 4 ∧
    (correcting true 0 0).cal.maxEnc.toInt ≤ (correcting true 0 0).cal.maxAng.toInt ∧
    (1600#32).toInt ≤ (correcting true 0 0).cal.maxAng.toInt ∧
    ({ State.reset with cal := ⟨0#32, 0#32, 0#32, 0#32, 4#32, 3#32, true, false⟩ } : State).cal.maxEnc = 3#32 ∧
    ({ State.reset with cal := ⟨0#32, 0#32, 0#32, 0#32, 10#32, 3#32, true, false⟩ } : State).cal.maxAng = 10#32 ∧
    ({ State.reset with cal := ⟨0#32, 0#32, 0#32, 0#32, 3#32, 10#32, true, false⟩ } : State).cal.maxEnc = 10#32 := by
  decide +kernel

/-- An empty queue and a full one. -/
theorem witness_QueueOccupancy :
    QueueInRange State.reset ∧ 2 ≤ State.reset.cfg.queueN ∧ qEmpty State.reset ∧ QueueInRange fullQueue ∧
    qFull fullQueue := by decide +kernel

theorem witness_QueueIsFifo :
    QueueInRange State.reset ∧ 2 ≤ State.reset.cfg.queueN ∧ ¬ qFull State.reset ∧ QueueInRange fullQueue ∧
    qFull fullQueue := by decide +kernel

/-- Drawing, three waypoints queued, a fourth arriving. -/
def drawingTick : State :=
  { fullQueue with
    mode := .drawing, motor := ⟨true, 0#32⟩, out := { TickOut.reset with motorEnOut := true }
    ticks := [{ TickIn.plain 0#32 with inBytes := encodeFrame Config.tc (.addPos 0#32 0#32 0#32 0#32 0#32 0#32) }] }

/-- The first and the last live slot. -/
theorem witness_LiveSlotsAreImmutable :
    ∃ t, Inv drawingTick ∧ step drawingTick = .next t ∧ 0 < qCount drawingTick ∧ 2 < qCount drawingTick :=
  ⟨after (step drawingTick), inv_of (by decide +kernel) (by decide +kernel) (by decide +kernel), next_after (by decide +kernel), by decide +kernel,
    by decide +kernel⟩

/-! ### Witnesses: the corrector -/

/-- V-AC-5, V-AC-8; V-AC-2, just within; V-AC-3, just not. -/
theorem witness_ArrivalCheckGates :
    (correcting false 1 8).corrEn = false ∧
    ({ State.reset with corrEn := true } : State).cal.maxEnc = 0#32 ∧
    (correcting true 2 9).corrEn = true ∧ (correcting true 2 9).cal.maxEnc ≠ 0#32 ∧
    (correcting true 2 9).cal.maxAng ≠ 0#32 ∧
    2 * |(encoderToAnglePos (correcting true 2 9).enc (correcting true 2 9)).toInt - (correcting true 2 9).axes.ang.pos.toInt| *
        |(correcting true 2 9).cal.maxEnc.toInt| < |(correcting true 2 9).cal.maxAng.toInt| ∧
    (correcting true 2 10).corrEn = true ∧ (correcting true 2 10).cal.maxEnc ≠ 0#32 ∧
    (correcting true 2 10).cal.maxAng ≠ 0#32 ∧
    |(correcting true 2 10).cal.maxAng.toInt| ≤
      2 * |(encoderToAnglePos (correcting true 2 10).enc (correcting true 2 10)).toInt -
          (correcting true 2 10).axes.ang.pos.toInt| * |(correcting true 2 10).cal.maxEnc.toInt| := by decide +kernel

/-- A loaded waypoint, its correction running, in Drawing with three waypoints queued. -/
def correctingDrawing (corrEn : Bool) (enc : Int) : State :=
  { correcting corrEn enc 8 with
    mode := .drawing, motor := ⟨true, 0#32⟩, queue := fullQueue.queue, draw := ⟨true, true, false, 0#32, 0#32, true⟩ }

/-- V-AC-6 and V-AC-7, by themselves and at the mode step: abandoned, converged, one count short. -/
theorem witness_CorrectionStepCases :
    (¬ corrActive (correcting false 1 8) ∧
      (corrActive (correcting true 2 8) ∧
        (correcting true 2 8).enc = anglePosToEncoder (correcting true 2 8).axes.ang.tgt (correcting true 2 8)) ∧
      (corrActive (correcting true 1 8) ∧
        (correcting true 1 8).enc ≠ anglePosToEncoder (correcting true 1 8).axes.ang.tgt (correcting true 1 8))) ∧
    ((correctingDrawing true 2).mode = .drawing ∧ (correctingDrawing true 2).draw.loaded = true ∧
      (correctingDrawing true 2).draw.corr = true ∧ (correctingDrawing true 2).draw.settle = false ∧
      ¬ qEmpty (correctingDrawing true 2)) ∧
    (¬ corrActive (correctingDrawing false 1) ∧ (after (modeStep (correctingDrawing false 1))).queue.head = 1) ∧
    ((correctingDrawing true 2).enc = anglePosToEncoder (correctingDrawing true 2).axes.ang.tgt (correctingDrawing true 2) ∧
      (after (modeStep (correctingDrawing true 2))).queue.head = 1) ∧
    ((correctingDrawing true 1).enc ≠ anglePosToEncoder (correctingDrawing true 1).axes.ang.tgt (correctingDrawing true 1) ∧
      (after (modeStep (correctingDrawing true 1))).queue.head = 0) := by
  decide +kernel

/-- The state of P6 after tick 27, with an encoder that stays still. -/
def correctingTick : State :=
  { correcting true 1 8 with
    mode := .drawing, motor := ⟨true, 0#32⟩, draw := ⟨true, true, false, 0#32, 0#32, true⟩
    ticks := [TickIn.plain 28000#32, TickIn.plain 29000#32] }

theorem witness_CorrectionMayNeverEnd :
    correctingTick.mode = .drawing ∧ correctingTick.draw.loaded = true ∧ correctingTick.draw.corr = true ∧
    correctingTick.draw.settle = false ∧ corrActive correctingTick ∧
    correctingTick.enc ≠ anglePosToEncoder correctingTick.axes.ang.tgt correctingTick ∧
    correctingTick.framer.st ≠ .pending ∧ QuietLink correctingTick ∧
    (∀ t ∈ correctingTick.ticks, t.encDelta = 0#32) := by
  unfold QuietLink
  decide +kernel

/-! ### Witnesses: the sequencer -/

/-- Homing with both zero switches confirmed at the mode step. -/
def homed : State := { inMode .homing with sw := switchesAt 3 0 }

/-- The max phase, both max switches confirmed. -/
def maxed : State := { inMode .calibrating with sw := switchesAt 0 3, sweep := ⟨.max, ⟨true, true⟩, ⟨false, false⟩, ⟨12#32, 14#32⟩⟩ }

/-- Every transition of the mode step, and the one a dispatch makes. -/
theorem witness_ModeTransitionsAreTheTable :
    (∃ t, modeStep homed = .next t ∧ t.mode = .idle) ∧
    (∃ t, modeStep maxed = .next t ∧ t.mode = .homing) ∧
    (∃ t, modeStep (inMode .drawing) = .next t ∧ t.mode = .idle) ∧
    (∃ t, modeStep { homed with mode := .calibrating } = .next t ∧ t.sweep.phase = .max) ∧
    (∃ t, dispatchFrame (pendingPayload (encode Config.tc (.setMode 1#32))) = .next t ∧ t.mode = .homing) :=
  ⟨⟨after (modeStep homed), next_after (by decide +kernel), by decide +kernel⟩,
    ⟨after (modeStep maxed), next_after (by decide +kernel), by decide +kernel⟩,
    ⟨after (modeStep (inMode .drawing)), next_after (by decide +kernel), by decide +kernel⟩,
    ⟨after (modeStep { homed with mode := .calibrating }), next_after (by decide +kernel), by decide +kernel⟩,
    ⟨after (dispatchFrame (pendingPayload (encode Config.tc (.setMode 1#32)))), next_after (by decide +kernel),
      by decide +kernel⟩⟩

/-- Homing, and the first half of Calibrating, one poll short of a confirmation; and the mixed tick of P2. -/
theorem witness_HomingStepsBackward :
    ((inMode .homing).mode = .homing ∧
      (homingTick { inMode .homing with sw := switchesAt 2 0 }).sweep.homed ≠ ⟨true, true⟩) ∧
    (((inMode .calibrating).mode = .calibrating ∧ (inMode .calibrating).sweep.phase = .home) ∧
      (homingTick { inMode .calibrating with sw := switchesAt 2 0 }).sweep.homed ≠ ⟨true, true⟩) ∧
    (p2tick6.mode = .homing ∧ (homingTick p2tick6).sweep.homed ≠ ⟨true, true⟩ ∧ snapsNow p2tick6 .amp = true ∧
      homesNow p2tick6 .ang = true) := by decide +kernel

/-- One poll short of a confirmation, and the mixed tick of P4. -/
theorem witness_MaxSweepCountsPulses :
    ((maxed.mode = .calibrating ∧ maxed.sweep.phase = .max) ∧
      (maxTick { maxed with sw := switchesAt 0 2 }).sweep.maxed ≠ ⟨true, true⟩) ∧
    (p4tick18.mode = .calibrating ∧ p4tick18.sweep.phase = .max ∧ (maxTick p4tick18).sweep.maxed ≠ ⟨true, true⟩ ∧
      derivesNow p4tick18 .amp = true ∧ sweepsNow p4tick18 .ang = true) := by decide +kernel

/-- Both confirmed at once, one of them before (P2, tick 7), and the same in the first half of Calibrating. -/
theorem witness_HomingSnapsAndEnds :
    (homed.mode = .homing ∧ homed.sweep.homed = ⟨false, false⟩ ∧ debPressed .az homed ∧ debPressed .gz homed) ∧
    (p2tick7.mode = .homing ∧ (homingTick p2tick7).sweep.homed = ⟨true, true⟩ ∧ snapsNow p2tick7 .amp = false) ∧
    (({ p2tick7 with mode := .calibrating } : State).mode = .calibrating ∧ p2tick7.sweep.phase = .home ∧
      (homingTick { p2tick7 with mode := .calibrating }).sweep.homed = ⟨true, true⟩) := by
  decide +kernel

/-- Three ticks, exactly DEBOUNCE_K, with both zero switches pressed. -/
def homingRun : State :=
  { inMode .homing with
    ticks := [⟨2000#32, [], ⟨true, false, true, false⟩, 0#32, true⟩, ⟨3000#32, [], ⟨true, false, true, false⟩, 0#32, true⟩,
      ⟨4000#32, [], ⟨true, false, true, false⟩, 0#32, true⟩] }

theorem witness_HomingFinishes :
    homingRun.cfg.Valid ∧ SwitchesInRange homingRun ∧ homingRun.mode = .homing ∧
    homingRun.sweep.homed = ⟨false, false⟩ ∧ homingRun.framer.st ≠ .pending ∧ QuietLink homingRun ∧
    homingRun.cfg.debounceK ≤ homingRun.ticks.length ∧
    (∀ t ∈ homingRun.ticks, t.swRaw.az = homingRun.cfg.swActiveLevel ∧ t.swRaw.gz = homingRun.cfg.swActiveLevel) := by
  unfold QuietLink
  decide +kernel

theorem witness_HomingMayNeverEnd :
    1 ≤ homingStart.cfg.debounceK ∧ homingStart.mode = .homing ∧ homingStart.sweep.homed.amp = false ∧
    homingStart.framer.st ≠ .pending ∧ QuietLink homingStart ∧
    (∀ t ∈ homingStart.ticks, t.swRaw.az ≠ homingStart.cfg.swActiveLevel) := by
  unfold QuietLink
  decide +kernel

/-- A truncation with a value, and one out of the int32 range; a finite divisor, a zero, and an infinity. -/
theorem witness_AmplitudeDerivation :
    truncI32 (f32Mul Config.tc.offsetMm (deriveAmp maxed).cal.spmm) = some 60#32 ∧
    truncI32 (f32Mul Config.tc.offsetMm
      (deriveAmp { maxed with sweep := ⟨.max, ⟨true, true⟩, ⟨false, false⟩, ⟨0x7FFFFFFF#32, 0#32⟩⟩ }).cal.spmm) = none ∧
    (f32Mag 0x80000001#32 < 0x7F800000 ∧ f32Mag 0x80000001#32 ≠ 0) ∧
    (f32Mag 0x80000000#32 < 0x7F800000 ∧ f32Mag 0x80000000#32 = 0) ∧ f32Mag 0xFF800000#32 = 0x7F800000 := by
  decide +kernel

/-- Both confirmed at once, and one of them before (P4, tick 20). -/
theorem witness_CalibrationCompletes :
    (maxed.mode = .calibrating ∧ maxed.sweep.phase = .max ∧ maxed.sweep.maxed = ⟨false, false⟩ ∧ debPressed .ax maxed ∧
      debPressed .gx maxed) ∧
    (p4tick20.mode = .calibrating ∧ p4tick20.sweep.phase = .max ∧ (maxTick p4tick20).sweep.maxed = ⟨true, true⟩ ∧
      derivesNow p4tick20 .amp = false) := by decide +kernel

/-- The overflow threshold itself, and the largest finite binary32 below it. -/
theorem witness_RoundsToNearestEven :
    0 < 1 ∧ (2 ^ 25 - 1) * 2 ^ 252 * 1 ≤ ((2 ^ 25 - 1) * 2 ^ 103) * 2 ^ 149 ∧
    ((2 ^ 24 - 1) * 2 ^ 104) * 2 ^ 149 < (2 ^ 25 - 1) * 2 ^ 252 * 1 := by decide +kernel

/-- Drawing with three waypoints queued and nothing loaded; a pen was commanded before, at this value. -/
def readyToLoad (penLast : Int) : State :=
  { fullQueue with
    mode := .drawing, motor := ⟨true, 0#32⟩, now := 1000#32
    draw := ⟨false, false, false, 0#32, wrap32 penLast, true⟩ }

/-- The pen of the waypoint is 1: no pen before; just out of tolerance; just within. -/
theorem witness_DrawingLoadsWaypoint :
    (readyToLoad 0).mode = .drawing ∧ (readyToLoad 0).draw.loaded = false ∧ (readyToLoad 0).draw.settle = false ∧
    ¬ qEmpty (readyToLoad 0) ∧ (readyToLoad 0).queue.slots[(readyToLoad 0).queue.head]? = some (flat 1) ∧
    drawingTick.draw.penValid = false ∧
    ((readyToLoad 4).cfg.penTol : Int) < |(flat 1).pen.toInt - (readyToLoad 4).draw.penLast.toInt| ∧
    (readyToLoad 3).draw.penValid = true ∧
    |(flat 1).pen.toInt - (readyToLoad 3).draw.penLast.toInt| ≤ ((readyToLoad 3).cfg.penTol : Int) := by decide +kernel

/-- A settle hold begun at 0: its last microsecond, and its end. -/
theorem witness_SettleHoldsThenGoesOn :
    (inMode .drawing).mode = .drawing ∧ (⟨true, false, true, 0#32, 0#32, true⟩ : DrawRegs).settle = true ∧
    ((19999#32 : Word) - 0#32).toNat < Config.tc.penSettleUs ∧ Config.tc.penSettleUs ≤ ((20000#32 : Word) - 0#32).toNat := by
  decide +kernel

/-- A loaded waypoint: one step away from both targets, and two. -/
def drawingLoaded (tgt : Int) : State :=
  { readyToLoad 0 with draw := ⟨true, false, false, 0#32, 0#32, true⟩, axes := axesAt 0 tgt 0 tgt }

/-- Both axes at their targets with the corrector active, 4 and 0 steps from the encoder-derived position. -/
def arriving (enc : Int) : State :=
  { correctingDrawing true enc with draw := ⟨true, false, false, 0#32, 0#32, true⟩ }

theorem witness_DrawingStepsAndCompletes :
    ((drawingLoaded 1).mode = .drawing ∧ (drawingLoaded 1).draw.loaded = true ∧ (drawingLoaded 1).draw.corr = false ∧
      (drawingLoaded 1).draw.settle = false ∧ ¬ qEmpty (drawingLoaded 1) ∧ ¬ corrActive (drawingLoaded 1) ∧
      (after (modeStep (drawingLoaded 1))).queue.head = 1 ∧ (after (modeStep (drawingLoaded 2))).queue.head = 0) ∧
    ((arriving 2).mode = .drawing ∧ (arriving 2).draw.loaded = true ∧ (arriving 2).draw.corr = false ∧
      (arriving 2).draw.settle = false ∧ ¬ qEmpty (arriving 2) ∧ corrActive (arriving 2) ∧
      HalfUnitNear (arriving 2) (arriving 2).axes.ang.pos ∧ (after (modeStep (arriving 2))).queue.head = 1) ∧
    (corrActive (arriving 1) ∧ ¬ HalfUnitNear (arriving 1) (arriving 1).axes.ang.pos ∧
      (after (modeStep (arriving 1))).draw.corr = true ∧ (after (modeStep (arriving 1))).queue.head = 0) := by
  unfold HalfUnitNear
  decide +kernel

theorem witness_DrawingEndsOnEmptyQueue :
    (inMode .drawing).mode = .drawing ∧ (inMode .drawing).draw.loaded = false ∧ (inMode .drawing).draw.settle = false ∧
    qEmpty (inMode .drawing) := by decide +kernel

theorem witness_InactiveCorrectorIgnoresEncoder :
    ∃ t, (drawingLoaded 1).mode = .drawing ∧ ¬ corrActive (drawingLoaded 1) ∧ modeStep (drawingLoaded 1) = .next t :=
  ⟨after (modeStep (drawingLoaded 1)), rfl, by decide +kernel, next_after (by decide +kernel)⟩

theorem witness_SwitchesMatterOnlyInSweeps :
    (∃ t, (drawingLoaded 1).mode = .drawing ∧ modeStep (drawingLoaded 1) = .next t) ∧
    (∃ t, State.reset.mode = .idle ∧ modeStep State.reset = .next t) :=
  ⟨⟨after (modeStep (drawingLoaded 1)), rfl, next_after (by decide +kernel)⟩, ⟨State.reset, rfl, rfl⟩⟩

/-- A frame pending with two bytes of OBUF too many, three ticks to come. -/
def heldFrame : State :=
  { homePending with
    obuf := List.replicate 35 0#8
    ticks := [TickIn.plain 0#32, TickIn.plain 1000#32, TickIn.plain 2000#32] }

/-- The hold, and the case with no hold at all. -/
theorem witness_DispatchHoldEnds :
    (Inv heldFrame ∧ heldFrame.framer.st = .pending ∧ (∀ t ∈ heldFrame.ticks, t.outReady = true) ∧
      heldFrame.obuf.length + 95 - heldFrame.cfg.outBufLen < heldFrame.ticks.length) ∧
    (Inv homePending ∧ homePending.framer.st = .pending ∧ (∀ t ∈ homePending.ticks, t.outReady = true) ∧
      homePending.obuf.length + 95 - homePending.cfg.outBufLen < homePending.ticks.length) :=
  ⟨⟨inv_of (by decide +kernel) (by decide +kernel) (by decide +kernel), by decide +kernel⟩, ⟨inv_of (by decide +kernel) (by decide +kernel) (by decide +kernel), by decide +kernel⟩⟩

theorem witness_PlacedFrameIsPending : homePending.framer.pbuf.wf = true ∧ homePending.cfg.Valid := by decide +kernel

end Sys2Proof.Tests
end

