-- ==== Sys2Proof/Proofs/Encoding.lean ====
section
/-! PROOFS. GETSTATUS: the frame of a reply in the words of the statements, and the status dump. -/

namespace Sys2Proof.Machine

/-- GETSTATUS is the dump and OK, as one reply under its own tag (R239). -/
theorem exec_getStatus (s : State) :
    exec .getStatus s = reply (statusDump s ++ okBytes) (some s.cfg.tagGetStatus) .none s := rfl

/-- A reply that goes out pushes its bytes, emits its record, and changes no register. -/
theorem reply_frame {bytes : List Byte} {tag : Option Word} {cause : Cause} {s t : State}
    (h : reply bytes tag cause s = .next t) :
    Replied bytes tag cause s t ∧ OutsideSame s t ∧ FramerSame s t ∧ CommandRegsSame s t := by
  obtain ⟨-, rfl⟩ := reply_eq_next.1 h
  exact ⟨⟨rfl, rfl⟩, ⟨rfl, rfl, rfl, rfl, rfl, rfl, rfl, rfl⟩, ⟨rfl, fun _ => rfl⟩,
    ⟨rfl, rfl, rfl, rfl, rfl, rfl, rfl⟩⟩

/-- A reply of at most MAX_REPLY_LEN bytes goes out wherever a frame may be dispatched (R235). -/
theorem reply_goes_out {bytes : List Byte} (tag : Option Word) (cause : Cause) {s : State}
    (hroom : replyRoom s) (hlen : bytes.length ≤ maxReplyLen) : ∃ t, reply bytes tag cause s = .next t :=
  ⟨_, reply_of_room ((Nat.add_le_add_left hlen _).trans hroom)⟩

/-- The reply of GETSTATUS is the longest there is: 92 bytes of dump and the 3 of OK. -/
theorem statusReply_length (s : State) : (statusDump s ++ okBytes).length = maxReplyLen := by
  rw [List.length_append, statusDump_length, okBytes_length, maxReplyLen]

/-- Settles O21: the reply of GETSTATUS fits the room, and the frame of a reply is the rest. The words the statement
writes out are those of `statusWords`, and its four bytes of a word those of `le32`, by definition. -/
theorem getStatusDumps : Obligations.GetStatusDumps := by
  intro s hroom
  obtain ⟨t, ht⟩ := reply_goes_out (some s.cfg.tagGetStatus) .none hroom (statusReply_length s).le
  obtain ⟨hreplied, houtside, hframer, hregs⟩ := reply_frame ht
  have hlen : t.obuf.length = s.obuf.length + 95 := by
    rw [hreplied.1, List.length_append, statusReply_length, maxReplyLen]
  exact ⟨t, (exec_getStatus s).trans ht, hreplied, hlen, houtside, hframer, hregs⟩

end Sys2Proof.Machine
end

/-! PROOFS. The stepper axes: the elapsed time behind the pacing predicate. -/

namespace Sys2Proof.Machine

/-- The subtraction of R19 and R138 cancels the starting point, so the time base may wrap in between: only the elapsed
time itself has to fit in 32 bits. -/
theorem elapsed_after (t : Word) {d : Nat} (hd : d < 2 ^ 32) : elapsed (BitVec.ofNat 32 (t.toNat + d)) t = d := by
  have hnow : BitVec.ofNat 32 (t.toNat + d) = t + BitVec.ofNat 32 d := by
    rw [BitVec.ofNat_add, BitVec.ofNat_toNat, BitVec.setWidth_eq]
  calc elapsed (BitVec.ofNat 32 (t.toNat + d)) t
      = (t + BitVec.ofNat 32 d - t).toNat := by rw [elapsed, hnow]
    _ = (BitVec.ofNat 32 d).toNat := by rw [add_sub_cancel_left]
    _ = d := by rw [BitVec.toNat_ofNat, Nat.mod_eq_of_lt hd]

/-- Settles O33: `ready` compares IVL with the elapsed time, which is `d` by `elapsed_after`. -/
theorem pacingAcrossWrap : Obligations.PacingAcrossWrap := by
  intro r d hd
  rw [AxisRegs.ready, elapsed_after r.last hd]

end Sys2Proof.Machine

/-! PROOFS. The waypoint queue: the occupancy, with the live slots in one run or wrapped past the last slot. -/

namespace Sys2Proof.Machine

/-- Live slots that do not wrap: the occupancy is the distance from HEAD to TAIL (R172). -/
theorem qCount_of_head_le_tail {s : State} (htail : s.queue.tail < s.cfg.queueN) (hle : s.queue.head ≤ s.queue.tail) :
    qCount s = s.queue.tail - s.queue.head := by
  rw [qCount, Nat.sub_add_comm hle, Nat.add_mod_right, Nat.mod_eq_of_lt ((Nat.sub_le _ _).trans_lt htail)]

/-- Live slots that wrap: those from HEAD to the end of the ring, and those before TAIL (R172). -/
theorem qCount_of_tail_lt_head {s : State} (hhead : s.queue.head < s.cfg.queueN) (hlt : s.queue.tail < s.queue.head) :
    qCount s = s.queue.tail + (s.cfg.queueN - s.queue.head) := by
  rw [qCount, Nat.add_sub_assoc hhead.le, Nat.mod_eq_of_lt (by omega)]

/-- The occupancy is the difference of the two indices modulo QUEUE_N, in ℤ, where a TAIL below HEAD is no obstacle. -/
theorem qCount_eq_emod {s : State} (hhead : s.queue.head ≤ s.cfg.queueN) :
    (qCount s : Int) = ((s.queue.tail : Int) - s.queue.head) % s.cfg.queueN := by
  rw [qCount, Nat.add_sub_assoc hhead, Int.natCast_emod, Nat.cast_add, Nat.cast_sub hhead, ← Int.add_sub_assoc,
    add_sub_right_comm, Int.add_emod_right]

/-- A queue is full with TAIL just before HEAD, which for HEAD = 0 is the last slot (R170, R171). -/
theorem qFull_iff {s : State} (htail : s.queue.tail < s.cfg.queueN) :
    qFull s ↔ s.queue.tail + 1 = s.queue.head ∧ s.queue.tail + 1 < s.cfg.queueN ∨
      s.queue.tail + 1 = s.cfg.queueN ∧ s.queue.head = 0 := by
  rw [qFull, nextIndex]
  rcases (Nat.succ_le_of_lt htail).lt_or_eq with hlt | hlast
  · rw [Nat.mod_eq_of_lt hlt]
    omega
  · rw [← hlast, Nat.mod_self]
    omega

/-- The occupancy is an index of the ring, so at least one slot is always free (R171). -/
theorem qCount_lt {s : State} (hpos : 0 < s.cfg.queueN) : qCount s < s.cfg.queueN := Nat.mod_lt _ hpos

/-- Empty means occupancy 0 (R172): wrapped live slots include at least the last slot of the ring. -/
theorem qCount_eq_zero_iff {s : State} (hq : QueueInRange s) : qCount s = 0 ↔ qEmpty s := by
  obtain ⟨-, hhead, htail⟩ := hq
  rcases le_or_gt s.queue.head s.queue.tail with hle | hlt
  · rw [qCount_of_head_le_tail htail hle, Nat.sub_eq_zero_iff_le]
    exact ⟨hle.antisymm, fun h => h.ge⟩
  · rw [qCount_of_tail_lt_head hhead hlt]
    omega

/-- Full means occupancy QUEUE_N - 1 (R172): HEAD = 0 with TAIL the last slot, or TAIL just before HEAD. -/
theorem qCount_eq_pred_iff {s : State} (hq : QueueInRange s) : qCount s = s.cfg.queueN - 1 ↔ qFull s := by
  obtain ⟨-, hhead, htail⟩ := hq
  rw [qFull_iff htail]
  rcases le_or_gt s.queue.head s.queue.tail with hle | hlt
  · rw [qCount_of_head_le_tail htail hle]
    omega
  · rw [qCount_of_tail_lt_head hhead hlt]
    omega

/-- Settles O38: empty and full are R171 by definition; the occupancy goes by whether the live slots wrap. -/
theorem queueOccupancy : Obligations.QueueOccupancy := by
  intro s hq hn
  have ⟨_, hhead, _⟩ := hq
  have hlt : qCount s < s.cfg.queueN := qCount_lt (two_pos.trans_le hn)
  exact ⟨Iff.rfl, Iff.rfl, qCount_eq_emod hhead.le, Nat.le_sub_one_of_lt hlt, qCount_eq_zero_iff hq,
    qCount_eq_pred_iff hq⟩

end Sys2Proof.Machine

/-! PROOFS. The supervisor: what a mode entry leaves unchanged, and the Drawing tick that has nothing left to do. -/

namespace Sys2Proof.Machine

/-- A mode entry writes the registers of R193 to R197 as the statements list them. -/
theorem modeEntered_enter (m : Mode) (s : State) : ModeEntered m s (enter m s) := by
  cases m <;> exact ⟨rfl, rfl, rfl, rfl, rfl⟩

/-- A mode entry changes no axis, no input and no part of the environment. -/
theorem outsideSame_enter (m : Mode) (s : State) : OutsideSame s (enter m s) :=
  ⟨enter_cfg m s, enter_axes m s, enter_enc m s, enter_sw m s, enter_now m s, enter_draws m s, enter_rx m s,
    enter_ticks m s⟩

/-- A mode entry does not touch the framer. -/
theorem framerSame_enter (m : Mode) (s : State) : FramerSame s (enter m s) :=
  ⟨enter_framer m s, fun _ => by rw [enter_framer]⟩

/-- In Drawing the mode step is DrawStep (R192). -/
theorem modeStep_of_drawing {s : State} (hmode : s.mode = .drawing) : modeStep s = drawStep s := by
  rw [modeStep, hmode]

/-- With SETTLE = 0 there is no hold, and clearing SETTLE changes nothing (R208). -/
theorem drawStep_of_not_settle {s : State} (hsettle : s.draw.settle = false) : drawStep s = drawRun s := by
  have hclear : { s with draw := { s.draw with settle := false } } = s := by rw [← hsettle]
  rcases drawStep_cases s with ⟨⟨hhold, -⟩, -⟩ | ⟨-, hrun⟩
  · exact absurd hhold (by simp [hsettle])
  · rw [hrun, hclear]

/-- With nothing loaded and nothing queued, Drawing is over (R213). -/
theorem drawRun_of_empty {s : State} (hloaded : s.draw.loaded = false) (hempty : qEmpty s) :
    drawRun s = .next (enter .idle s) := by
  rw [drawRun, if_pos hloaded, if_pos hempty]

/-- Settles O56: without a hold the mode step is `drawRun`, which enters Idle; the rest is the frame of a mode entry. -/
theorem drawingEndsOnEmptyQueue : Obligations.DrawingEndsOnEmptyQueue := by
  intro s hmode hloaded hsettle hempty
  have hstep : modeStep s = .next (enter .idle s) :=
    calc modeStep s = drawStep s := modeStep_of_drawing hmode
      _ = drawRun s := drawStep_of_not_settle hsettle
      _ = .next (enter .idle s) := drawRun_of_empty hloaded hempty
  exact ⟨enter .idle s, hstep, modeEntered_enter .idle s, outsideSame_enter .idle s, framerSame_enter .idle s,
    enter_corrEn .idle s, enter_queue .idle s, enter_obuf .idle s, enter_out .idle s⟩

end Sys2Proof.Machine

/-! PROOFS. Reset: a register with one value for every axis or switch, and the reset speed as a setSpeed. -/

namespace Sys2Proof.Machine

/-- A per-axis register holding one value holds it at every axis. -/
theorem PerAxis.get_diag {α : Type} (x : α) (a : Axis) : (⟨x, x⟩ : PerAxis α).get a = x := by
  cases a <;> rfl

/-- A per-switch register holding one value holds it at every switch. -/
theorem PerSwitch.get_diag {α : Type} (x : α) (k : Switch) : (⟨x, x, x, x⟩ : PerSwitch α).get k = x := by
  cases k <;> rfl

/-- The speed setSpeed stores is the clamp itself: no bit of it is lost in the 32-bit register (R131, R8). -/
theorem AxisRegs.setSpeed_spd_toNat {c : Config} (h1 : 1 ≤ c.maxSpeed) (h2 : c.maxSpeed ≤ usPerS) (v : Word)
    (r : AxisRegs) : ((r.setSpeed c v).spd.toNat : Int) = clamp v.toInt 1 c.maxSpeed := by
  obtain ⟨hlo, hhi⟩ := clampSpeed_range h1 v
  have hus : usPerS = 1000000 := rfl
  have hfits : (clamp v.toInt 1 c.maxSpeed).toNat < 2 ^ 32 := by omega
  have hspd : (r.setSpeed c v).spd.toNat = (clamp v.toInt 1 c.maxSpeed).toNat :=
    (BitVec.toNat_ofNat _ 32).trans (Nat.mod_eq_of_lt hfits)
  rw [hspd]
  omega

/-- Reset loads SPEED_RESET the way setSpeed does, so what holds of setSpeed holds of it (R33, R290). -/
theorem AxisRegs.setSpeed_reset (c : Config) : (AxisRegs.reset c).setSpeed c c.speedReset = AxisRegs.reset c := rfl

/-- SPD after reset is the clamp of SPEED_RESET (R290). -/
theorem AxisRegs.reset_spd_toNat {c : Config} (h1 : 1 ≤ c.maxSpeed) (h2 : c.maxSpeed ≤ usPerS) :
    ((AxisRegs.reset c).spd.toNat : Int) = clamp c.speedReset.toInt 1 c.maxSpeed := by
  rw [← AxisRegs.setSpeed_reset]
  exact AxisRegs.setSpeed_spd_toNat h1 h2 c.speedReset (AxisRegs.reset c)

/-- An axis is in range after reset (R33, R34). -/
theorem AxisRegs.reset_inRange {c : Config} (h1 : 1 ≤ c.maxSpeed) (h2 : c.maxSpeed ≤ usPerS) :
    (AxisRegs.reset c).InRange c := by
  rw [← AxisRegs.setSpeed_reset]
  exact AxisRegs.setSpeed_inRange h1 h2 c.speedReset (AxisRegs.reset c)

/-- Both axes leave reset with the same registers. -/
theorem State.resetWith_axes_get (c : Config) (a : Axis) : (State.resetWith c).axes.get a = AxisRegs.reset c :=
  PerAxis.get_diag _ a

/-- Settles O9: SPD and IVL are those of a setSpeed to SPEED_RESET, and every other row of the table of R290 is the
value the definition of reset writes, at each axis and each switch alike. -/
theorem resetValues : Obligations.ResetValues := by
  intro c hvalid
  obtain ⟨-, ⟨hlo, hhi⟩, -⟩ := hvalid
  have hspd := AxisRegs.reset_spd_toNat hlo hhi
  obtain ⟨-, -, hivl⟩ := AxisRegs.reset_inRange hlo hhi
  refine ⟨fun a => ?axis, rfl, rfl, rfl, rfl, rfl, rfl, rfl, PerSwitch.get_diag _, rfl, rfl, rfl, rfl, rfl, rfl, rfl,
    rfl, rfl, rfl, rfl⟩
  case axis =>
    rw [State.resetWith_axes_get]
    exact ⟨rfl, rfl, hspd, hivl, rfl, rfl, PerAxis.get_diag _ a, PerAxis.get_diag _ a, PerAxis.get_diag _ a,
      PerAxis.get_diag _ a, PerAxis.get_diag _ a⟩

end Sys2Proof.Machine

/-! PROOFS. Decoding and encoding: the words of a cut encoding, and the selection by tag read in both directions. -/

namespace Sys2Proof

namespace Machine

/-- Cutting the bytes of some words at `n` leaves the words that lie wholly below `n` (R17). -/
theorem payloadWords_take (ws : List Word) (n : Nat) :
    payloadWords ((ws.flatMap le32).take n) = ws.take (n / 4) := by
  induction ws generalizing n with
  | nil => simp [payloadWords]
  | cons w ws ih =>
    rcases lt_or_ge n 4 with hlt | hge
    · rw [payloadWords_short ((List.length_take_le _ _).trans_lt hlt), Nat.div_eq_of_lt hlt, List.take_zero]
    · obtain ⟨m, rfl⟩ := Nat.exists_eq_add_of_le hge
      have hcut : ((w :: ws).flatMap le32).take (4 + m) = le32 w ++ (ws.flatMap le32).take m :=
        List.take_length_add_append (l₁ := le32 w) m
      rw [hcut, payloadWords_le32_append, ih, Nat.add_div_left m (by decide), List.take_succ_cons]

/-- The first field of a payload is `w` exactly when the payload begins with the four bytes of `w`. -/
theorem payloadWords_eq_cons_iff {p : List Byte} {w : Word} :
    (∃ l, payloadWords p = w :: l) ↔ ∃ rest, p = le32 w ++ rest := by
  constructor
  · rintro ⟨l, hl⟩
    obtain ⟨rest, -, hp⟩ := payload_eq_words p
    exact ⟨l.flatMap le32 ++ rest, by rw [hp, hl, List.flatMap_cons, List.append_assoc]⟩
  · rintro ⟨rest, rfl⟩
    exact ⟨_, payloadWords_le32_append w rest⟩

end Machine

open Machine

/-- An encoding has the length its format requires (R106 to R111). -/
theorem encode_length (c : Config) (i : Instr) : (encode c i).length = i.requiredLength := by
  rw [encode, length_flatMap_le32]
  cases i <;> rfl

/-- A format requires its tag and its fields, four bytes each. -/
theorem Instr.requiredLength_eq (i : Instr) : i.requiredLength = 4 * (i.fields.length + 1) := by
  cases i <;> rfl

/-- The tag of a command followed by its fields selects that command (R112), whatever words follow (R115). -/
theorem decodeWords_fields {c : Config} (hd : c.TagsDistinct) (i : Instr) (l : List Word) :
    decodeWords c (i.tag c :: (i.fields ++ l)) = .ok i := by
  simp only [Config.TagsDistinct, List.nodup_cons, List.mem_cons, List.not_mem_nil, or_false, not_or] at hd
  cases i <;> simp [decodeWords, Instr.tag, Instr.fields, decodeSix, hd, eq_comm]

/-- The tag of a command followed by fewer words than its fields is short, with that tag (R115). -/
theorem decodeWords_short {c : Config} (hd : c.TagsDistinct) (i : Instr) {l : List Word}
    (hl : l.length < i.fields.length) : decodeWords c (i.tag c :: l) = .error (.short (some (i.tag c))) := by
  simp only [Config.TagsDistinct, List.nodup_cons, List.mem_cons, List.not_mem_nil, or_false, not_or] at hd
  cases i <;> simp only [Instr.fields, List.length_cons, List.length_nil, Nat.lt_one_iff, List.length_eq_zero_iff,
    Nat.not_lt_zero, zero_add] at hl
  case setMode | setAngleCorr => subst hl; simp [decodeWords, Instr.tag, hd, eq_comm]
  case calibrate | addPos => simp [decodeWords, Instr.tag, decodeSix_short hl, hd, eq_comm]

/-- A payload cut below its format's length is short: without a tag below 4 bytes, with the tag otherwise. -/
theorem decode_take_encode {c : Config} (hd : c.TagsDistinct) {i : Instr} {n : Nat} (hn : n < i.requiredLength) :
    decode c ((encode c i).take n) = .error (.short (if n < 4 then none else some (i.tag c))) := by
  rw [decode, encode, payloadWords_take]
  rw [Instr.requiredLength_eq] at hn
  split_ifs with hlt
  · rw [Nat.div_eq_of_lt hlt, List.take_zero, decodeWords]
  · obtain ⟨k, hk⟩ : ∃ k, n / 4 = k + 1 := ⟨n / 4 - 1, by omega⟩
    rw [hk, List.take_succ_cons]
    exact decodeWords_short hd i (by rw [List.length_take]; omega)

/-- A payload that begins with a command's encoding decodes to that command. -/
theorem decode_encode_append {c : Config} (hd : c.TagsDistinct) (i : Instr) (extra : List Byte) :
    decode c (encode c i ++ extra) = .ok i := by
  rw [decode, encode, payloadWords_flatMap, List.cons_append, decodeWords_fields hd]

/-- Words that decode to a command are its tag, its fields and ignored words. -/
theorem decodeWords_eq_ok {c : Config} {ws : List Word} {i : Instr} (h : decodeWords c ws = .ok i) :
    ∃ l, ws = (i.tag c :: i.fields) ++ l := by
  have one {tag : Word} {mk : Word → Instr} {l : List Word} (h : decodeI32 tag mk l = .ok i) :
      ∃ a rest, l = a :: rest ∧ i = mk a := by
    cases l with
    | nil => cases h
    | cons a rest => exact ⟨a, rest, rfl, by cases h; rfl⟩
  have six {tag : Word} {mk : Word → Word → Word → Word → Word → Word → Instr} {l : List Word}
      (h : decodeSix tag mk l = .ok i) :
      ∃ a b d e f g rest, l = a :: b :: d :: e :: f :: g :: rest ∧ i = mk a b d e f g := by
    rcases decodeSix_cases tag mk l with ⟨a, b, d, e, f, g, rest, hl, hk⟩ | ⟨-, hk⟩ <;> rw [hk] at h <;> cases h
    exact ⟨a, b, d, e, f, g, rest, hl, rfl⟩
  cases ws with
  | nil => cases h
  | cons tag l =>
    rw [decodeWords] at h
    split_ifs at h with h1 h2 h3 h4 h5
    · cases h; exact ⟨l, by rw [h1]; rfl⟩
    · obtain ⟨a, rest, rfl, rfl⟩ := one h; exact ⟨rest, by rw [h2]; rfl⟩
    · obtain ⟨a, b, d, e, f, g, rest, rfl, rfl⟩ := six h; exact ⟨rest, by rw [h3]; rfl⟩
    · obtain ⟨a, rest, rfl, rfl⟩ := one h; exact ⟨rest, by rw [h4]; rfl⟩
    · obtain ⟨a, b, d, e, f, g, rest, rfl, rfl⟩ := six h; exact ⟨rest, by rw [h5]; rfl⟩

/-- No format answers "unknown tag": only a tag that selects none does (R113). -/
theorem decodeWords_eq_unknownTag {c : Config} {ws : List Word} {tag : Word} :
    decodeWords c ws = .error (.unknownTag tag) ↔
      (∃ l, ws = tag :: l) ∧
      tag ∉ [c.tagGetStatus, c.tagSetMode, c.tagCalibrate, c.tagSetAngleCorr, c.tagAddPosition] := by
  have one (t : Word) (mk : Word → Instr) (l : List Word) : decodeI32 t mk l ≠ .error (.unknownTag tag) := by
    cases l <;> simp
  have six (t : Word) (mk : Word → Word → Word → Word → Word → Word → Instr) (l : List Word) :
      decodeSix t mk l ≠ .error (.unknownTag tag) := by
    rcases decodeSix_cases t mk l with ⟨a, b, d, e, f, g, rest, -, hk⟩ | ⟨-, hk⟩ <;> rw [hk] <;> simp
  cases ws with
  | nil => simp [decodeWords]
  | cons t l =>
    rw [decodeWords]
    split_ifs with h1 h2 h3 h4 h5 <;> simp only [one, six, List.cons.injEq, List.mem_cons, List.not_mem_nil, or_false,
      not_or, Except.error.injEq, Reject.unknownTag.injEq, exists_and_left, false_iff, not_and]
    case neg =>
      constructor
      · rintro rfl; exact ⟨⟨rfl, l, rfl⟩, h1, h2, h3, h4, h5⟩
      · exact fun h => h.1.1
    all_goals rintro ⟨rfl, -⟩; tauto

namespace Machine

/-- Settles O1: the words of the encoding, whole or cut, are those of the tag and the fields, and the tags, being
distinct, select the format they belong to. -/
theorem decodeInvertsEncode : Obligations.DecodeInvertsEncode := by
  intro c i extra hvalid
  obtain ⟨-, -, -, -, -, -, hd, -⟩ := hvalid
  exact ⟨encode_length c i, decode_encode_append hd i extra, fun n hn => decode_take_encode hd hn⟩

/-- Settles O2: a payload is the bytes of its words and at most three more, and the words are tag and fields. -/
theorem decodedPayloadIsEncoding : Obligations.DecodedPayloadIsEncoding := by
  intro c p i h
  obtain ⟨l, hl⟩ := decodeWords_eq_ok h
  obtain ⟨rest, -, hp⟩ := payload_eq_words p
  have hsplit : p = encode c i ++ (l.flatMap le32 ++ rest) := by
    rw [hp, hl, List.flatMap_append, List.append_assoc, encode]
  have hlen := encode_length c i
  rw [hsplit]
  exact ⟨by rw [List.length_append, hlen]; omega, (List.take_left' hlen).symm⟩

/-- Settles O3: only the selection by tag answers "unknown tag", and a payload's first word is its first four bytes. -/
theorem unrecognizedTagsExactly : Obligations.UnrecognizedTagsExactly := by
  intro c p tag
  rw [decode, decodeWords_eq_unknownTag, payloadWords_eq_cons_iff]
  rfl

/-- Settles O4: each vector is evaluated by the decoder. -/
theorem knownWordsDecode : Obligations.KnownWordsDecode := by
  unfold Obligations.KnownWordsDecode
  decide +kernel

end Machine

end Sys2Proof

/-! PROOFS. The framer: what a run of bytes makes of its registers, in the start run, in the payload with its false
terminators, and in the end run. -/

namespace Sys2Proof

/-- Three equal bytes in a row, said with the bytes around them. -/
theorem hasTripleRun_iff {e : Byte} {l : List Byte} :
    hasTripleRun e l = true ↔ ∃ xs ys, l = xs ++ e :: e :: e :: ys := by
  induction l using hasTripleRun.induct with
  | case1 a b d rest ih =>
    simp only [hasTripleRun, Bool.or_eq_true, Bool.and_eq_true, beq_iff_eq, ih]
    constructor
    · rintro (⟨⟨rfl, rfl⟩, rfl⟩ | ⟨xs, ys, h⟩)
      · exact ⟨[], rest, rfl⟩
      · exact ⟨a :: xs, ys, by rw [h]; rfl⟩
    · rintro ⟨_ | ⟨x, xs⟩, ys, h⟩
      · simp only [List.nil_append, List.cons.injEq] at h
        tauto
      · simp only [List.cons_append, List.cons.injEq] at h
        exact .inr ⟨xs, ys, h.2⟩
  | case2 l h =>
    rw [hasTripleRun]
    · simp only [Bool.false_eq_true, false_iff, not_exists]
      rintro (_ | ⟨x, _ | ⟨y, _ | ⟨z, xs⟩⟩⟩) ys rfl <;> exact h _ _ _ _ rfl
    · exact h

/-- A list without a triple run has none in its tail. -/
theorem hasTripleRun_of_append {e : Byte} {xs ys : List Byte} (h : hasTripleRun e (xs ++ ys) = false) :
    hasTripleRun e ys = false := by
  rw [← Bool.not_eq_true, hasTripleRun_iff] at h ⊢
  rintro ⟨as, bs, rfl⟩
  exact h ⟨xs ++ as, bs, by rw [List.append_assoc]⟩

/-- A byte that goes on a run does not make it one of three. -/
theorem run_succ_ne_three {e : Byte} {n : Nat} {ys : List Byte}
    (h : hasTripleRun e (List.replicate n e ++ e :: ys) = false) : n + 1 ≠ 3 := by
  rintro hn
  obtain rfl : n = 2 := by omega
  rw [← Bool.not_eq_true, hasTripleRun_iff] at h
  exact h ⟨[], ys, rfl⟩

theorem replicate_append_cons {α : Type} (n : Nat) (e : α) (ys : List α) :
    List.replicate n e ++ e :: ys = List.replicate (n + 1) e ++ ys := by
  rw [List.replicate_succ', List.append_assoc, List.singleton_append]

namespace Machine

theorem feedAll_append (c : Config) (xs ys : List Byte) (f : FramerRegs) :
    feedAll c (xs ++ ys) f = feedAll c ys (feedAll c xs f) := List.foldl_append ..

theorem feedAll_cons (c : Config) (b : Byte) (bs : List Byte) (f : FramerRegs) :
    feedAll c (b :: bs) f = feedAll c bs (f.feed c b) := rfl

@[simp] theorem feedAll_nil (c : Config) (f : FramerRegs) : feedAll c [] f = f := rfl

theorem FramerRegs.feed_of_pending {c : Config} {f : FramerRegs} (h : f.st = .pending) (b : Byte) :
    f.feed c b = f := by rw [FramerRegs.feed, h]

/-- A pending frame takes nothing more (R230). -/
theorem feedAll_of_pending {c : Config} {f : FramerRegs} (h : f.st = .pending) (bs : List Byte) :
    feedAll c bs f = f := by
  induction bs with
  | nil => rfl
  | cons b bs ih => rw [feedAll_cons, FramerRegs.feed_of_pending h, ih]

theorem Memory.writeFrom_concat (xs : List Byte) (b : Byte) :
    ∀ (m : Memory) (a : Nat), m.writeFrom a (xs ++ [b]) = (m.writeFrom a xs).write (a + xs.length) b := by
  induction xs with
  | nil => exact fun _ _ => rfl
  | cons x xs ih =>
    intro m a
    rw [List.cons_append, Memory.writeFrom, ih, Memory.writeFrom, List.length_cons, Nat.add_assoc, Nat.add_comm 1]

/-! ### The start run -/

theorem FramerRegs.feed_hunt {c : Config} {f : FramerRegs} (h : f.st = .hunt) (b : Byte) :
    f.feed c b = f.hunt c b := by rw [FramerRegs.feed, h]

/-- Bytes without a start run that do not end in S leave a hunting framer as it was, with SRUN = 0 (R231, R114). -/
theorem feedAll_gap {c : Config} (gap : List Byte) :
    ∀ {f : FramerRegs}, f.st = .hunt → hasTripleRun c.frameStart (List.replicate f.srun c.frameStart ++ gap) = false →
      gap.getLast? ≠ some c.frameStart → (gap = [] → f.srun = 0) → feedAll c gap f = { f with srun := 0 } := by
  induction gap with
  | nil =>
    intro f _ _ _ h0
    rw [← h0 rfl, feedAll_nil]
  | cons b bs ih =>
    intro f hst hrun hlast _
    have hlast' : bs.getLast? ≠ some c.frameStart := by
      cases bs with
      | nil => simp
      | cons b' bs => rwa [List.getLast?_cons_cons] at hlast
    rw [feedAll_cons, FramerRegs.feed_hunt hst, FramerRegs.hunt]
    split_ifs with hb h3
    · exact absurd h3 (run_succ_ne_three (hb ▸ hrun))
    · rw [hb, replicate_append_cons] at hrun
      refine ih (f := { f with srun := f.srun + 1 }) hst hrun hlast' ?_
      rintro rfl
      exact absurd hlast (by simp [hb])
    · exact ih (f := { f with srun := 0 }) hst
        (hasTripleRun_of_append (xs := [b]) (hasTripleRun_of_append hrun)) hlast' fun _ => rfl

/-! ### The payload -/

/-- The framer in a frame of which `p` is stored and `n` end bytes are held back (R232). -/
def FramerRegs.collected (p : List Byte) (n : Nat) (f : FramerRegs) : FramerRegs where
  st := .inFrame
  srun := 0
  erun := n
  pbuf := f.pbuf.writeFrom 0 p
  plen := p.length
  ovf := false

/-- Three start bytes begin a frame (R231). -/
theorem feedAll_startRun {c : Config} {f : FramerRegs} (hst : f.st = .hunt) (hs : f.srun = 0) :
    feedAll c (List.replicate 3 c.frameStart) f = f.collected [] 0 := by
  simp [List.replicate, feedAll_cons, FramerRegs.feed, FramerRegs.hunt, hst, hs, FramerRegs.collected, Memory.writeFrom]

theorem FramerRegs.append_collected {c : Config} {p : List Byte} (h : p.length < c.frameBufLen) (n : Nat) (x : Byte)
    (f : FramerRegs) : (f.collected p n).append c x = f.collected (p ++ [x]) n := by
  rw [FramerRegs.append, if_neg (by simp [FramerRegs.collected]), if_neg (by simpa [FramerRegs.collected] using h)]
  simp [FramerRegs.collected, Memory.writeFrom_concat]

theorem FramerRegs.reEmit_collected {c : Config} (n k : Nat) (f : FramerRegs) :
    ∀ {p : List Byte}, p.length + k ≤ c.frameBufLen →
      (f.collected p n).reEmit c k = f.collected (p ++ List.replicate k c.frameEnd) n := by
  induction k with
  | zero => intro p _; rw [FramerRegs.reEmit_zero, List.replicate_zero, List.append_nil]
  | succ k ih =>
    intro p h
    rw [FramerRegs.reEmit_succ, FramerRegs.append_collected (by omega),
      ih (by rw [List.length_append, List.length_singleton]; omega), List.append_assoc, List.singleton_append,
      List.replicate_succ]

/-- An end byte in a frame is held back, or ends the frame (R232). -/
theorem FramerRegs.feed_collected_end (c : Config) (p : List Byte) (n : Nat) (f : FramerRegs) :
    (f.collected p n).feed c c.frameEnd =
      if n + 1 = 3 then { f.collected p 0 with st := .pending } else f.collected p (n + 1) := by
  simp [FramerRegs.feed, FramerRegs.collected, FramerRegs.collect]

/-- Any other byte in a frame comes after the end bytes held back (R232). -/
theorem FramerRegs.feed_collected_ne {c : Config} {p : List Byte} {n : Nat} (h : p.length + n ≤ c.frameBufLen)
    {b : Byte} (hb : b ≠ c.frameEnd) (f : FramerRegs) :
    (f.collected p n).feed c b = (f.collected (p ++ List.replicate n c.frameEnd) 0).append c b := by
  have hre := FramerRegs.reEmit_collected n n f h
  rw [FramerRegs.feed, show (f.collected p n).st = .inFrame from rfl]
  simp only [FramerRegs.collect, show (f.collected p n).erun = n from rfl, hre, if_neg hb]
  rfl

/-- A payload that meets R114 (a) and fits is stored, but for the end bytes it may end in, which are held back. -/
theorem feedAll_payload {c : Config} (q : List Byte) (f : FramerRegs) :
    ∀ {p : List Byte} {n : Nat}, hasTripleRun c.frameEnd (List.replicate n c.frameEnd ++ q) = false →
      p.length + n + q.length ≤ c.frameBufLen →
      ∃ p' n', p' ++ List.replicate n' c.frameEnd = p ++ List.replicate n c.frameEnd ++ q ∧
        feedAll c q (f.collected p n) = f.collected p' n' := by
  induction q with
  | nil => exact fun {p n} _ _ => ⟨p, n, (List.append_nil _).symm, rfl⟩
  | cons b q ih =>
    intro p n hrun hlen
    rw [List.length_cons] at hlen
    rw [feedAll_cons]
    by_cases hb : b = c.frameEnd
    · subst hb
      rw [FramerRegs.feed_collected_end, if_neg (run_succ_ne_three hrun)]
      rw [replicate_append_cons] at hrun
      obtain ⟨p', n', hp, hf⟩ := ih (p := p) hrun (by omega)
      exact ⟨p', n', by rw [hp, List.append_assoc, List.append_assoc, replicate_append_cons], hf⟩
    · have hfit : (p ++ List.replicate n c.frameEnd).length = p.length + n := by simp
      rw [FramerRegs.feed_collected_ne (by omega) hb, FramerRegs.append_collected (by omega)]
      obtain ⟨p', n', hp, hf⟩ := ih (p := p ++ List.replicate n c.frameEnd ++ [b]) (n := 0)
        (hasTripleRun_of_append (xs := [b]) (hasTripleRun_of_append hrun))
        (by rw [List.length_append, hfit, List.length_singleton]; omega)
      exact ⟨p', n', by rw [hp]; simp, hf⟩

/-- A deliverable payload is stored whole: no end byte is held back at its end. -/
theorem feedAll_deliverable {c : Config} {p : List Byte} (h : Deliverable c p) (f : FramerRegs) :
    feedAll c p (f.collected [] 0) = f.collected p 0 := by
  obtain ⟨hrun, hlast, hlen⟩ := h
  obtain ⟨p', n', hp, hf⟩ := feedAll_payload p f (p := []) (n := 0) hrun (by simpa using hlen)
  rw [List.replicate_zero, List.append_nil, List.nil_append] at hp
  cases n' with
  | zero => rw [hf, ← hp, List.replicate_zero, List.append_nil]
  | succ n' =>
    rw [List.replicate_succ', ← List.append_assoc] at hp
    exact absurd (by rw [← hp, List.getLast?_concat]) hlast

/-! ### The end run, and the whole frame -/

/-- Three end bytes end the frame, and none of them is stored (R232). -/
theorem feedAll_endRun (c : Config) (p : List Byte) (f : FramerRegs) :
    feedAll c (List.replicate 3 c.frameEnd) (f.collected p 0) = { f.collected p 0 with st := .pending } := by
  simp only [List.replicate, feedAll_cons, feedAll_nil]
  rw [FramerRegs.feed_collected_end, if_neg (by decide), FramerRegs.feed_collected_end, if_neg (by decide),
    FramerRegs.feed_collected_end, if_pos rfl]

/-- A frame with a deliverable payload, fed to a hunting framer (R231 to R233). -/
theorem feedAll_frame {c : Config} {f : FramerRegs} {p : List Byte} (hst : f.st = .hunt) (hs : f.srun = 0)
    (hp : Deliverable c p) : feedAll c (frame c p) f = { f.collected p 0 with st := .pending } := by
  rw [frame, feedAll_append, feedAll_append, feedAll_startRun hst hs, feedAll_deliverable hp, feedAll_endRun]

/-- What is stored is what is read, in a PBUF of canonical form (R233, R17). -/
theorem FramerRegs.collected_payload {f : FramerRegs} (hwf : f.pbuf.wf = true) (p : List Byte) (n : Nat) :
    (f.collected p n).payload = p := by
  have h := Memory.map_read_writeFrom p 0 hwf
  simp only [Nat.zero_add] at h
  exact h

/-- Settles O5: the gap changes nothing, and the frame stores its payload whole and ends. -/
theorem framerDeliversPayload : Obligations.FramerDeliversPayload := by
  intro c f gap p _ hwf hst hs hgap hp
  have hgap' : feedAll c gap f = f := by
    rw [feedAll_gap gap hst (by rw [hs]; exact hgap.1) hgap.2 fun _ => hs, ← hs]
  rw [feedAll_append, hgap', feedAll_frame hst hs hp]
  exact ⟨rfl, rfl, FramerRegs.collected_payload hwf p 0, rfl⟩

/-- Settles O6: the bytes before the last fill PBUF or are held back; the last one, which is no end byte, re-emits
those held back and finds PBUF full. -/
theorem overlongFrameOverflows : Obligations.OverlongFrameOverflows := by
  intro c f p _ hst hs hrun hlen hlast
  obtain ⟨q, b, rfl⟩ := List.eq_nil_or_concat' p |>.resolve_left (by rintro rfl; simp at hlen)
  rw [List.length_append, List.length_singleton, Nat.add_right_cancel_iff] at hlen
  have hb : b ≠ c.frameEnd := by rintro rfl; exact hlast List.getLast?_concat
  have hq : hasTripleRun c.frameEnd q = false := by
    rw [← Bool.not_eq_true, hasTripleRun_iff] at hrun ⊢
    rintro ⟨xs, ys, rfl⟩
    exact hrun ⟨xs, ys ++ [b], by simp⟩
  obtain ⟨p', n', hp, hf⟩ := feedAll_payload q f (p := []) (n := 0) hq (by simpa using hlen.le)
  have hfull : p'.length + n' = c.frameBufLen := by
    have := congrArg List.length hp
    simpa [hlen] using this
  have hfeed : feedAll c (List.replicate 3 c.frameStart ++ (q ++ [b])) f =
      (f.collected (p' ++ List.replicate n' c.frameEnd) 0).append c b := by
    rw [feedAll_append, feedAll_startRun hst hs, feedAll_append, hf, feedAll_cons, feedAll_nil,
      FramerRegs.feed_collected_ne hfull.le hb]
  have hover : (f.collected (p' ++ List.replicate n' c.frameEnd) 0).append c b =
      { f.collected (p' ++ List.replicate n' c.frameEnd) 0 with ovf := true, st := .pending } := by
    rw [FramerRegs.append, if_neg (by simp [FramerRegs.collected]),
      if_pos (by simp [FramerRegs.collected, hfull])]
  rw [hfeed, hover]
  exact ⟨rfl, rfl, by simpa [FramerRegs.collected] using hfull⟩

/-- Settles O60: the framer placed is pending with the payload written to PBUF, and OBUF is kept only where it has
room; emptied, it has room because a valid configuration fits the longest reply. -/
theorem placedFrameIsPending : Obligations.PlacedFrameIsPending := by
  intro s p hwf hvalid
  obtain ⟨-, -, -, -, -, hout, -⟩ := hvalid
  have hroom : replyRoom (placeFrame p s) := by
    show (if replyRoom s then s.obuf else []).length + maxReplyLen ≤ s.cfg.outBufLen
    split_ifs with hr
    · exact hr
    · simpa using hout
  exact ⟨FramerRegs.collected_payload hwf p 0, rfl, rfl, hroom, Memory.writeFrom_wf p 0 hwf, List.cons_ne_nil _ _, rfl⟩

end Machine

end Sys2Proof

/-! PROOFS. The input phase and the tick around it: bytes taken in pieces, a command arriving by the link, and what the
later phases keep of what the input phase leaves. -/

namespace Sys2Proof.Machine

/-! ### The byte loop -/

/-- Settles O8: a piece that goes on does so byte by byte, and only a held frame stops it. -/
theorem inputSplitsAnywhere : Obligations.InputSplitsAnywhere := by
  intro xs ys
  induction xs with
  | nil =>
    intro s u h _
    rw [inputLoop_nil, Host.Outcome.next.injEq] at h
    rw [h, List.nil_append]
  | cons b xs ih =>
    intro s u h hu
    rw [List.cons_append]
    rcases inputLoop_cons b xs s with ⟨hp, e⟩ | ⟨hp, hr, e⟩ | ⟨hp, -, e⟩ <;> rw [e] at h
    · rw [inputLoop, if_neg hp]
      exact ih _ _ h hu
    · obtain ⟨v, e1, e2⟩ := andThen_eq_next.1 h
      rw [inputLoop, if_pos hp, if_pos hr, e1, andThen_next]
      exact ih _ _ e2 hu
    · rw [Host.Outcome.next.injEq] at h
      exact absurd (h ▸ hp) hu

/-- The state once some bytes are fed with no dispatch among them: the framer and the consumed count have changed. -/
def bytesFed (bs : List Byte) (s : State) : State :=
  { s with
    framer := feedAll s.cfg bs s.framer
    out := { s.out with consumed := s.out.consumed + bs.length } }

theorem bytesFed_cons (b : Byte) (bs : List Byte) (s : State) : bytesFed (b :: bs) s = bytesFed bs (feedByte b s) := by
  rw [bytesFed, List.length_cons, Nat.add_comm bs.length, ← Nat.add_assoc]
  rfl

theorem feedByte_bytesFed (b : Byte) (bs : List Byte) (s : State) :
    feedByte b (bytesFed bs s) = bytesFed (bs ++ [b]) s := by
  conv_rhs => rw [bytesFed, feedAll_append, List.length_append, ← Nat.add_assoc]
  rfl

/-- Bytes that complete no frame are fed and counted, and that is all (R236). -/
theorem inputLoop_of_not_pending (bs : List Byte) :
    ∀ {s : State}, (bytesFed bs s).framer.st ≠ .pending → inputLoop bs s = .next (bytesFed bs s) := by
  induction bs with
  | nil => exact fun _ => rfl
  | cons b bs ih =>
    intro s h
    rw [bytesFed_cons] at h
    have hb : (feedByte b s).framer.st ≠ .pending := fun hp => h (by rw [bytesFed, feedAll_of_pending hp]; exact hp)
    rw [inputLoop, if_neg hb, ih h, bytesFed_cons]

/-! ### A command by the link -/

/-- A pending frame that has not overflowed and decodes runs its command (R237). -/
theorem runFrame_of_decode {s : State} {i : Instr} (hov : s.framer.ovf = false)
    (hd : decode s.cfg s.framer.payload = .ok i) : runFrame s = exec i s := by
  rw [runFrame, if_neg (by simp [hov]), hd]

/-- A deliverable frame, fed while the framer hunts, leaves its payload pending. -/
theorem bytesFed_frame {s : State} {p : List Byte} (hst : s.framer.st = .hunt) (hs : s.framer.srun = 0)
    (hp : Deliverable s.cfg p) :
    (bytesFed (frame s.cfg p) s).framer = { s.framer.collected p 0 with st := .pending } := feedAll_frame hst hs hp

/-- Such a frame is taken whole and dispatched, where OBUF has room. -/
theorem inputPhase_frame {s : State} {p : List Byte} (hst : s.framer.st = .hunt) (hs : s.framer.srun = 0)
    (hp : Deliverable s.cfg p) (hroom : replyRoom s) :
    inputPhase (frame s.cfg p) s = dispatchFrame (bytesFed (frame s.cfg p) s) := by
  have hdone : (bytesFed (frame s.cfg p) s).framer.st = .pending := by rw [bytesFed_frame hst hs hp]
  set body := List.replicate 3 s.cfg.frameStart ++ p ++ [s.cfg.frameEnd, s.cfg.frameEnd] with hbody
  have hsplit : frame s.cfg p = body ++ [s.cfg.frameEnd] := by simp [frame, hbody, List.replicate]
  have hmid : (bytesFed body s).framer.st ≠ .pending := by
    rw [bytesFed, hbody, feedAll_append, feedAll_append, feedAll_startRun hst hs, feedAll_deliverable hp, feedAll_cons,
      FramerRegs.feed_collected_end, if_neg (by decide), feedAll_cons, FramerRegs.feed_collected_end,
      if_neg (by decide), feedAll_nil]
    simp [FramerRegs.collected]
  rw [hsplit] at hdone ⊢
  rw [inputPhase, if_neg (by simp [hst]), inputSplitsAnywhere body _ s _ (inputLoop_of_not_pending body hmid) hmid,
    inputLoop, feedByte_bytesFed, if_pos hdone,
    if_pos (show replyRoom (bytesFed body s) from hroom)]
  cases dispatchFrame (bytesFed (body ++ [s.cfg.frameEnd]) s) <;> rfl

/-- Settles O7: the frame is taken whole, its payload is the command's encoding, and that decodes to the command. -/
theorem commandArrivesByLink : Obligations.CommandArrivesByLink := by
  intro s i hvalid hin hst hs hwell hroom
  obtain ⟨-, -, -, -, -, -, htags, -⟩ := hvalid
  have hframer := bytesFed_frame hst hs hwell
  have hpay : (bytesFed (encodeFrame s.cfg i) s).framer.payload = encode s.cfg i := by
    rw [encodeFrame, hframer]
    exact FramerRegs.collected_payload hin.1 _ 0
  have hdec : decode s.cfg (encode s.cfg i) = .ok i := by simpa using decode_encode_append htags i []
  have hov : (bytesFed (encodeFrame s.cfg i) s).framer.ovf = false := by rw [encodeFrame, hframer]; rfl
  refine ⟨bytesFed (encodeFrame s.cfg i) s, rfl, by rw [encodeFrame, hframer], hov, hpay, ?_⟩
  have hrun := runFrame_of_decode (i := i) hov (hpay.symm ▸ hdec)
  rw [encodeFrame] at hrun ⊢
  rw [inputPhase_frame hst hs hwell hroom, dispatchFrame, hrun]

/-! ### The tick -/

theorem andThen_assoc (r : Result) (f g : State → Result) :
    andThen (andThen r f) g = andThen r fun u => andThen (f u) g := by
  cases r <;> rfl

/-- A step with a tick scheduled is that tick, with the transport's keeping. -/
theorem step_of_ticks {s : State} {t : TickIn} {rest : List TickIn} (h : s.ticks = t :: rest) :
    step s = transportTick t (s.setTicks rest) := by
  rw [step, scheduledTick, h]

theorem transportTick_eq (t : TickIn) (s : State) :
    transportTick t s =
      andThen (andThen (inputPhase (s.rx ++ t.inBytes) (beginTick t s)) (afterInput t)) fun u =>
        .next (u.setRx ((s.rx ++ t.inBytes).drop u.out.consumed)) := rfl

/-- A frame that a former tick left pending is dispatched first, where OBUF has room (R236). -/
theorem inputPhase_of_room {s : State} (hst : s.framer.st = .pending) (hroom : replyRoom s) (bs : List Byte) :
    inputPhase bs s = andThen (dispatchFrame s) (inputLoop bs) := by
  rw [inputPhase, if_pos hst, if_pos hroom]

/-- Settles O16: the schedule is empty. -/
theorem noTickNoChange : Obligations.NoTickNoChange := by
  intro s h
  rw [step, scheduledTick, h]

/-- Settles O15: phase A finds the frame pending with room, and running it is running the command. -/
theorem stepRunsPendingCommand : Obligations.StepRunsPendingCommand := by
  intro s t rest i hticks hst hov hroom hdec
  have hrun : runFrame (beginTick t (s.setTicks rest)) = exec i (beginTick t (s.setTicks rest)) :=
    runFrame_of_decode hov hdec
  have hphase : inputPhase (s.rx ++ t.inBytes) (beginTick t (s.setTicks rest)) =
      andThen (exec i (beginTick t (s.setTicks rest))) fun u => inputLoop (s.rx ++ t.inBytes) (clearFrame u) := by
    rw [inputPhase_of_room (s := beginTick t (s.setTicks rest)) hst hroom, dispatchFrame, hrun, andThen_assoc]
    rfl
  rw [step_of_ticks hticks, transportTick_eq, State.setTicks_rx, hphase]
  rfl

/-- What phases B to E keep of what the input phase leaves, and what B and C make of OBUF and the switches. -/
structure AfterInput (k : TickIn) (s t : State) : Prop where
  cfg : t.cfg = s.cfg
  corrEn : t.corrEn = s.corrEn
  framer : t.framer = s.framer
  now : t.now = s.now
  rx : t.rx = s.rx
  ticks : t.ticks = s.ticks
  diag : t.out.diag = s.out.diag
  consumed : t.out.consumed = s.out.consumed
  sw : t.sw = (sample k s).sw
  obuf : t.obuf = (outputDrain k.outReady s).obuf
  outByte : t.out.outByte = (outputDrain k.outReady s).out.outByte

/-- The output drain keeps what every mode step keeps, but for OBUF and the byte sent. -/
theorem outputDrain_shape (ready : Bool) (s : State) :
    outputDrain ready s = { s with
      obuf := (outputDrain ready s).obuf
      out := { s.out with outByte := (outputDrain ready s).out.outByte } } := by
  rcases outputDrain_cases ready s with ⟨-, e⟩ | ⟨b, rest, -, -, e⟩ <;> rw [e]

/-- The motor-enable phase changes MOTOR_EN and MOTOR_EN_OUT only. -/
theorem motorEnableUpdate_shape (s : State) :
    motorEnableUpdate s = { s with
      motor := { s.motor with en := (motorEnableUpdate s).motor.en }
      out := { s.out with motorEnOut := (motorEnableUpdate s).motor.en } } := by
  rcases motorEnableUpdate_cases s with ⟨-, e⟩ | ⟨-, e⟩ <;> rw [e]

theorem afterInput_keeps {k : TickIn} {s t : State} (h : afterInput k s = .next t) : AfterInput k s t := by
  obtain ⟨u, hu, rfl⟩ := afterInput_eq_next.1 h
  have m := modeStep_sameInput hu
  rw [outputDrain_shape, sample_eq] at m
  rw [motorEnableUpdate_shape]
  exact ⟨m.cfg, m.corrEn, m.framer, m.now, m.rx, m.ticks, m.diag, m.consumed, m.sw, m.obuf, m.outByte⟩

/-- Of OBUF the drain leaves all, or all but the first byte (R248). -/
theorem outputDrain_obuf (ready : Bool) (s : State) :
    (outputDrain ready s).obuf = if ready then s.obuf.tail else s.obuf := by
  rcases outputDrain_cases ready s with ⟨h | h, e⟩ | ⟨b, rest, h, hr, e⟩ <;> rw [e] <;> simp [*]

/-- The byte sent is the first of OBUF, where one is sent (R248). -/
theorem outputDrain_outByte (ready : Bool) {s : State} (h0 : s.out.outByte = none) :
    (outputDrain ready s).out.outByte = if ready then s.obuf.head? else none := by
  rcases outputDrain_cases ready s with ⟨h | h, e⟩ | ⟨b, rest, h, hr, e⟩ <;> rw [e] <;> simp [*]

/-- A tick that goes on is the input phase, then phases B to E. -/
theorem tick_eq_next {k : TickIn} {s t : State} :
    tick k s = .next t ↔ ∃ u, inputPhase k.inBytes (beginTick k s) = .next u ∧ afterInput k u = .next t :=
  andThen_eq_next

/-- Settles O19: the drain by its cases, the fresh record by definition, and the rest of the tick keeps what the drain
leaves. -/
theorem outputDrainsInOrder : Obligations.OutputDrainsInOrder := by
  refine ⟨fun ready s => ⟨fun b rest hob hr => ?sends, fun h => ?stays⟩, fun k s => rfl, fun k s t h => ?tick⟩
  case sends => rw [outputDrain, hob, hr]; rfl
  case stays =>
    rcases outputDrain_cases ready s with ⟨-, e⟩ | ⟨b, rest, hob, hr, -⟩
    · exact e
    · simp [hob, hr] at h
  case tick =>
    obtain ⟨u, hu, ht⟩ := tick_eq_next.1 h
    have a := (inputPhase_takes hu).1
    have b := afterInput_keeps ht
    exact ⟨u, hu, by rw [b.outByte, outputDrain_outByte _ a.outByte], by rw [b.obuf, outputDrain_obuf], b.consumed,
      b.diag, a.pulses, a.penCmd⟩

/-- Settles O17: the input phase gives its state on as many bytes as it counts, and on fewer it cannot count as many;
the later phases keep the count. -/
theorem transportKeepsUnconsumed : Obligations.TransportKeepsUnconsumed := by
  intro s u t rest hticks hstep
  rw [step_of_ticks hticks] at hstep
  obtain ⟨v, w, hv, hw, rfl⟩ := transportTick_eq_next.1 hstep
  obtain ⟨a, n, hn, hcount, htake, hheld⟩ := inputPhase_takes hv
  have b := afterInput_keeps hw
  rw [show (beginTick t (s.setTicks rest)).out.consumed = 0 from rfl, Nat.zero_add] at hcount
  have hcons : w.out.consumed = n := b.consumed.trans hcount
  have hleast : ∀ m, m < n →
      inputPhase ((s.rx ++ t.inBytes).take m) (beginTick t (s.setTicks rest)) ≠ .next v := by
    intro m hm h
    obtain ⟨-, m', hm', hcount', -⟩ := inputPhase_takes h
    rw [show (beginTick t (s.setTicks rest)).out.consumed = 0 from rfl, Nat.zero_add, hcount] at hcount'
    have := hm'.trans (List.length_take_le _ _)
    omega
  simp only [State.setRx_ticks, State.setRx_now, State.setRx_out, State.setRx_rx, State.setTicks_rx, hcons]
  exact ⟨b.ticks.trans a.ticks, b.now.trans a.now, hn, List.take_append_drop _ _, v, hv, htake, hleast, hheld⟩

end Sys2Proof.Machine

/-! PROOFS. The commands and their dispatch: what a reply adds to an update of the registers, and how a rejected frame
is answered. -/

namespace Sys2Proof.Machine

/-! ### The checksum -/

/-- A remainder lies below the modulus on both sides of 0 (R14). -/
theorem tmod_checksumModulus_range (x : Int) : -122 ≤ x.tmod checksumModulus ∧ x.tmod checksumModulus ≤ 122 := by
  have hlo := Int.lt_tmod_of_pos x (b := checksumModulus) (by decide)
  have hhi := Int.tmod_lt_of_pos x (b := checksumModulus) (by decide)
  rw [checksumModulus] at *
  omega

/-- Settles O30: the sum of five remainders, each in [-122, 122]. -/
theorem checksumRange : Obligations.ChecksumRange := by
  intro amp ang pen vamp vang
  have h1 := tmod_checksumModulus_range amp.toInt
  have h2 := tmod_checksumModulus_range ang.toInt
  have h3 := tmod_checksumModulus_range pen.toInt
  have h4 := tmod_checksumModulus_range vamp.toInt
  have h5 := tmod_checksumModulus_range vang.toInt
  rw [checksum]
  omega

/-- Numbers of one sign that differ by a multiple of the modulus have the same remainder. -/
theorem tmod_eq_of_same_sign {x y k : Int} (hsign : 0 ≤ x ∧ 0 ≤ y ∨ x ≤ 0 ∧ y ≤ 0)
    (hk : y = x + checksumModulus * k) : x.tmod checksumModulus = y.tmod checksumModulus := by
  rcases hsign with ⟨hx, hy⟩ | ⟨hx, hy⟩
  · rw [Int.tmod_eq_emod_of_nonneg hx, Int.tmod_eq_emod_of_nonneg hy, hk, Int.add_mul_emod_self_left]
  · have hneg : -y = -x + checksumModulus * -k := by rw [hk, mul_neg]; omega
    rw [← neg_neg x, ← neg_neg y, Int.neg_tmod, Int.neg_tmod (-y), Int.tmod_eq_emod_of_nonneg (by omega),
      Int.tmod_eq_emod_of_nonneg (by omega : 0 ≤ -y), hneg, Int.add_mul_emod_self_left]

/-- Settles O31: the remainders of the changed field agree, and a sum does not see its terms exchanged. -/
theorem checksumMissesSuchErrors : Obligations.ChecksumMissesSuchErrors := by
  intro f g ang pen vamp vang
  refine ⟨fun hsign ⟨k, hk⟩ => ?_, ?_⟩
  · rw [checksum, checksum, tmod_eq_of_same_sign hsign hk]
  · simp only [checksum]
    omega

/-! ### Replies after an update -/

/-- A reply of at most MAX_REPLY_LEN bytes after an update that left OBUF, the outputs and the configuration alone. -/
theorem reply_after {bytes : List Byte} (tag : Option Word) (cause : Cause) {s u : State} (hroom : replyRoom s)
    (hlen : bytes.length ≤ maxReplyLen) (hobuf : u.obuf = s.obuf) (hout : u.out = s.out) (hcfg : u.cfg = s.cfg) :
    ∃ t, reply bytes tag cause u = .next t ∧ Replied bytes tag cause s t ∧
      t = { u with obuf := t.obuf, out := t.out } := by
  have hu : replyRoom u := by rw [replyRoom, hobuf, hcfg]; exact hroom
  obtain ⟨t, ht⟩ := reply_goes_out tag cause hu hlen
  obtain ⟨-, rfl⟩ := reply_eq_next.1 ht
  exact ⟨_, ht, ⟨by rw [hobuf], by rw [hout]⟩, rfl⟩

theorem okBytes_length_le : okBytes.length ≤ maxReplyLen := by decide

theorem failBytes_length_le : failBytes.length ≤ maxReplyLen := by decide

/-- A rejection goes out wherever a frame may be dispatched, and leaves every register (R272). -/
theorem raise_goes_out (tag : Option Word) (cause : Cause) {s : State} (hroom : replyRoom s) :
    ∃ t, raise tag cause s = .next t ∧ Rejected tag cause s t ∧ FramerSame s t := by
  obtain ⟨t, ht⟩ := reply_goes_out tag cause hroom failBytes_length_le
  obtain ⟨hreplied, houtside, hframer, hregs⟩ := reply_frame ht
  exact ⟨t, ht, ⟨hreplied, houtside, hregs⟩, hframer⟩

/-! ### Each command -/

/-- SETMODE with the code of a mode is the entry, and OK. -/
theorem exec_setMode_code (m : Mode) (s : State) :
    exec (.setMode m.code) s = reply okBytes (some s.cfg.tagSetMode) .none (enter m s) := by
  rw [exec, execSetMode, Mode.ofCode_eq_some.2 rfl]

/-- Settles O22: a reply of OK after the mode entry. -/
theorem setModeEnters : Obligations.SetModeEnters := by
  intro s m hroom
  obtain ⟨t, ht, hreplied, hshape⟩ := reply_after (some s.cfg.tagSetMode) .none hroom okBytes_length_le
    (enter_obuf m s) (enter_out m s) (enter_cfg m s)
  refine ⟨t, (exec_setMode_code m s).trans ht, ?_, ?_, ?_, hreplied, ?_, ?_⟩ <;> rw [hshape]
  · exact modeEntered_enter m s
  · exact enter_corrEn m s
  · exact enter_queue m s
  · exact outsideSame_enter m s
  · exact framerSame_enter m s

/-- Settles O23: any other code is no mode, and is raised. -/
theorem setModeRejectsBadCode : Obligations.SetModeRejectsBadCode := by
  intro s code hroom hcode
  have hnone : Mode.ofCode code = none := Mode.ofCode_eq_none.2 (by simpa using hcode)
  have hexec : exec (.setMode code) s = raise (some s.cfg.tagSetMode) .badMode s := by rw [exec, execSetMode, hnone]
  rw [hexec]
  exact raise_goes_out _ _ hroom

/-- Settles O24: a reply of OK after the calibration registers are set. -/
theorem calibrateStoresVerbatim : Obligations.CalibrateStoresVerbatim := by
  intro s dist spmm minAmp maxAmp maxAng maxEnc hroom
  obtain ⟨t, ht, hreplied, hshape⟩ := reply_after (some s.cfg.tagCalibrate) .none hroom okBytes_length_le
    (u := s.onCal fun _ => ⟨dist, spmm, minAmp, maxAmp, maxAng, maxEnc, true, false⟩) rfl rfl rfl
  refine ⟨t, ht, ?_, ?_, ?_, ?_, ?_, ?_, ?_, hreplied, ?_, ?_⟩ <;> rw [hshape]
  case refine_8 => exact ⟨rfl, rfl, rfl, rfl, rfl, rfl, rfl, rfl⟩
  case refine_9 => exact ⟨rfl, fun _ => rfl⟩
  all_goals rfl

/-- Settles O25: a reply of OK after CORR_EN is set. -/
theorem setAngleCorrSets : Obligations.SetAngleCorrSets := by
  intro s enabled hroom
  obtain ⟨t, ht, hreplied, hshape⟩ := reply_after (some s.cfg.tagSetAngleCorr) .none hroom okBytes_length_le
    (u := s.setCorrEn (decide (enabled ≠ 0#32))) rfl rfl rfl
  have hflag : (decide (enabled ≠ 0#32) = true ↔ enabled.toInt ≠ 0) := by
    rw [decide_eq_true_iff, ne_eq, ← BitVec.toInt_inj, BitVec.toInt_zero]
  refine ⟨t, ht, ?_, ?_, ?_, ?_, ?_, ?_, ?_, hreplied, ?_, ?_⟩ <;> rw [hshape]
  case refine_1 => exact hflag
  case refine_8 => exact ⟨rfl, rfl, rfl, rfl, rfl, rfl, rfl, rfl⟩
  case refine_9 => exact ⟨rfl, fun _ => rfl⟩
  all_goals rfl

/-- ADDPOS makes its two tests in order, then enqueues and answers OK (R243, R273). -/
theorem exec_addPos_cases (amp ang pen vamp vang chk : Word) (s : State) :
    (checksum amp ang pen vamp vang ≠ chk.toInt ∧
      exec (.addPos amp ang pen vamp vang chk) s = raise (some s.cfg.tagAddPosition) .checksum s) ∨
    (checksum amp ang pen vamp vang = chk.toInt ∧ qFull s ∧
      exec (.addPos amp ang pen vamp vang chk) s = raise (some s.cfg.tagAddPosition) .queueFull s) ∨
    (checksum amp ang pen vamp vang = chk.toInt ∧ ¬ qFull s ∧
      exec (.addPos amp ang pen vamp vang chk) s =
        andThen (tryEnqueue ⟨amp, ang, pen, vamp, vang⟩ s) (reply okBytes (some s.cfg.tagAddPosition) .none)) := by
  simp only [exec, execAddPos]
  split_ifs with h1 h2
  · exact .inl ⟨h1, rfl⟩
  · exact .inr (.inl ⟨not_not.1 h1, h2, rfl⟩)
  · exact .inr (.inr ⟨not_not.1 h1, h2, rfl⟩)

/-- Settles O26: both tests pass, and a reply of OK follows the enqueue. -/
theorem addPosEnqueues : Obligations.AddPosEnqueues := by
  intro s amp ang pen vamp vang chk hroom hq hsum hfull
  obtain ⟨hlen, -, htail⟩ := hq
  have hslot : s.queue.tail < s.queue.slots.length := by rw [hlen]; exact htail
  rcases exec_addPos_cases amp ang pen vamp vang chk s with ⟨h, -⟩ | ⟨-, h, -⟩ | ⟨-, h, hexec⟩
  · exact absurd hsum h
  · exact absurd h hfull
  · rw [tryEnqueue_of_slot h hslot, andThen_next] at hexec
    rw [hexec]
    obtain ⟨t, ht, hreplied, hshape⟩ := reply_after (some s.cfg.tagAddPosition) .none hroom okBytes_length_le
      (u := { s with queue := ⟨s.queue.slots.set s.queue.tail ⟨amp, ang, pen, vamp, vang⟩, s.queue.head,
        nextIndex s.cfg s.queue.tail⟩ }) rfl rfl rfl
    refine ⟨t, ht, ?_, fun i hi => ?_, ?_, ?_, ?_, ?_, ?_, ?_, ?_, ?_, hreplied, ?_, ?_⟩ <;> rw [hshape]
    case refine_1 => exact List.getElem?_set_self hslot
    case refine_2 => exact List.getElem?_set_ne hi.symm
    case refine_11 => exact ⟨rfl, rfl, rfl, rfl, rfl, rfl, rfl, rfl⟩
    case refine_12 => exact ⟨rfl, fun _ => rfl⟩
    all_goals rfl

/-- Settles O27: the first test fails, or it passes and the second fails. -/
theorem addPosRejections : Obligations.AddPosRejections := by
  intro s amp ang pen vamp vang chk hroom
  refine ⟨fun hsum => ?checksum, fun hsum hfull => ?queueFull⟩ <;>
    rcases exec_addPos_cases amp ang pen vamp vang chk s with ⟨h, hexec⟩ | ⟨h, hf, hexec⟩ | ⟨h, hf, hexec⟩
  case checksum.inl => rw [hexec]; exact raise_goes_out _ _ hroom
  case checksum.inr.inl | checksum.inr.inr => exact absurd h hsum
  case queueFull.inl => exact absurd hsum h
  case queueFull.inr.inl => rw [hexec]; exact raise_goes_out _ _ hroom
  case queueFull.inr.inr => exact absurd hfull hf

/-! ### The dispatch -/

/-- A frame that is answered by a reply and no more: the reply goes out, no register changes, and the frame is cleared
(R237, R247). -/
theorem dispatchFrame_of_reply {bytes : List Byte} {tag : Option Word} {cause : Cause} {s : State}
    (hrun : runFrame s = reply bytes tag cause s) (hroom : replyRoom s) (hlen : bytes.length ≤ maxReplyLen) :
    ∃ t, dispatchFrame s = .next t ∧ Replied bytes tag cause s t ∧ OutsideSame s t ∧ CommandRegsSame s t ∧
      FrameCleared s t := by
  obtain ⟨u, hu⟩ := reply_goes_out tag cause hroom hlen
  obtain ⟨hreplied, houtside, hframer, hregs⟩ := reply_frame hu
  refine ⟨clearFrame u, by rw [dispatchFrame, hrun, hu, andThen_next], hreplied, houtside, hregs, ?_, hframer.2⟩
  rw [clearFrame_framer, hframer.1]

/-- A frame that is raised is rejected and cleared. -/
theorem dispatchFrame_of_raise {tag : Option Word} {cause : Cause} {s : State}
    (hrun : runFrame s = raise tag cause s) (hroom : replyRoom s) :
    ∃ t, dispatchFrame s = .next t ∧ Rejected tag cause s t ∧ FrameCleared s t := by
  obtain ⟨t, ht, hreplied, houtside, hregs, hcleared⟩ := dispatchFrame_of_reply hrun hroom failBytes_length_le
  exact ⟨t, ht, ⟨hreplied, houtside, hregs⟩, hcleared⟩

/-- A payload that the decoder calls short is raised as PE_SHORT (R246). -/
theorem runFrame_of_short {s : State} {tag : Option Word} (hov : s.framer.ovf = false)
    (hd : decode s.cfg s.framer.payload = .error (.short tag)) : runFrame s = raise tag .short s := by
  rw [runFrame, if_neg (by simp [hov]), hd]

/-- A payload with an unknown tag takes the Unrecognized path (R245). -/
theorem runFrame_of_unknownTag {s : State} {tag : Word} (hov : s.framer.ovf = false)
    (hd : decode s.cfg s.framer.payload = .error (.unknownTag tag)) : runFrame s = unrecognized tag s := by
  rw [runFrame, if_neg (by simp [hov]), hd]

/-- Settles O28: the overflow is tested first; otherwise the decoder's verdict on the payload decides. -/
theorem dispatchOfNoCommand : Obligations.DispatchOfNoCommand := by
  intro s hroom hvalid
  obtain ⟨-, -, -, -, -, -, htags, -⟩ := hvalid
  refine ⟨fun hov => ?overflow, fun hov hlen => ?noTag, fun i n hov hn hlt hpay => ?cut,
    fun tag rest hov hmem hpay => ?unknown⟩
  case overflow => exact dispatchFrame_of_raise (by rw [runFrame, if_pos hov]) hroom
  case noTag =>
    exact dispatchFrame_of_raise (runFrame_of_short hov (by rw [decode, payloadWords_short hlen, decodeWords])) hroom
  case cut =>
    refine dispatchFrame_of_raise (runFrame_of_short hov ?_) hroom
    rw [hpay, decode_take_encode htags hlt, if_neg (by omega)]
  case unknown =>
    refine dispatchFrame_of_reply (runFrame_of_unknownTag hov ?_) hroom okBytes_length_le
    rw [hpay, decode, payloadWords_le32_append]
    exact decodeWords_eq_unknownTag.2 ⟨⟨_, rfl⟩, hmem⟩

/-- From s to t one reply of at most 95 bytes was pushed and one record emitted, FAIL for the causes 1 to 5 and OK or a
dump and OK otherwise, and the framer was left alone (R237, R271). -/
def Answered (s t : State) : Prop :=
  t.framer = s.framer ∧ ∃ (bytes : List Byte) (d : Diag),
    t.obuf = s.obuf ++ bytes ∧ t.out = { s.out with diag := s.out.diag ++ [d] } ∧ bytes.length ≤ 95 ∧
    (1 ≤ d.cause.code ∧ d.cause.code ≤ 5 → bytes = failReply) ∧
    (d.cause.code = 0 ∨ d.cause.code = 6 → bytes = okReply ∨ bytes = statusDump s ++ okReply)

theorem raise_answered {tag : Option Word} {cause : Cause} {s t : State} (h : raise tag cause s = .next t)
    (hcause : 1 ≤ cause.code ∧ cause.code ≤ 5) : Answered s t := by
  obtain ⟨-, rfl⟩ := raise_eq_next.1 h
  exact ⟨rfl, failBytes, ⟨tag, cause⟩, rfl, rfl, by decide, fun _ => rfl,
    fun (h : cause.code = 0 ∨ cause.code = 6) => by omega⟩

/-- A reply of OK after an update that left the framer, OBUF and the outputs alone. -/
theorem ok_answered {tag : Option Word} {cause : Cause} {s u t : State} (h : reply okBytes tag cause u = .next t)
    (hcause : cause.code = 0 ∨ cause.code = 6) (hframer : u.framer = s.framer) (hobuf : u.obuf = s.obuf)
    (hout : u.out = s.out) : Answered s t := by
  obtain ⟨-, rfl⟩ := reply_eq_next.1 h
  exact ⟨hframer, okBytes, ⟨tag, cause⟩, by rw [hobuf], by rw [hout], by decide,
    fun (h : 1 ≤ cause.code ∧ cause.code ≤ 5) => by omega, fun _ => .inl rfl⟩

/-- Every command answers once. -/
theorem exec_answered {i : Instr} {s t : State} (h : exec i s = .next t) : Answered s t := by
  cases i with
  | getStatus =>
    obtain ⟨-, rfl⟩ := reply_eq_next.1 (exec_getStatus s ▸ h)
    exact ⟨rfl, _, _, rfl, rfl, (statusReply_length s).le, by simp [Cause.code], fun _ => .inr rfl⟩
  | setMode code =>
    simp only [exec, execSetMode] at h
    split at h
    · exact raise_answered h (by decide)
    · exact ok_answered h (.inl rfl) (enter_framer _ s) (enter_obuf _ s) (enter_out _ s)
  | calibrate => exact ok_answered h (.inl rfl) rfl rfl rfl
  | setAngleCorr => exact ok_answered h (.inl rfl) rfl rfl rfl
  | addPos amp ang pen vamp vang chk =>
    rcases exec_addPos_cases amp ang pen vamp vang chk s with ⟨-, e⟩ | ⟨-, -, e⟩ | ⟨-, -, e⟩ <;> rw [e] at h
    · exact raise_answered h (by decide)
    · exact raise_answered h (by decide)
    · obtain ⟨u, hu, ht⟩ := andThen_eq_next.1 h
      rcases tryEnqueue_cases hu with ⟨-, rfl⟩ | ⟨-, -, rfl⟩ <;> exact ok_answered ht (.inl rfl) rfl rfl rfl

/-- Every frame is answered once. -/
theorem runFrame_answered {s t : State} (h : runFrame s = .next t) : Answered s t := by
  rcases runFrame_cases s with ⟨-, e⟩ | ⟨-, i, -, e⟩ | ⟨-, tag, -, e⟩ | ⟨-, tag, -, e⟩ <;> rw [e] at h
  · exact raise_answered h (by decide)
  · exact exec_answered h
  · exact raise_answered h (by decide)
  · exact ok_answered h (.inr rfl) rfl rfl rfl

/-- Settles O29: the frame is answered once, and then cleared. -/
theorem dispatchAnswersOnce : Obligations.DispatchAnswersOnce := by
  intro s t h
  obtain ⟨u, hu, rfl⟩ := dispatchFrame_eq_next.1 h
  obtain ⟨hframer, bytes, d, hobuf, hout, hlen, hfail, hok⟩ := runFrame_answered hu
  exact ⟨bytes, d, hobuf, hout, hlen, ⟨by rw [clearFrame_framer, hframer], fun off => by rw [clearFrame_framer, hframer]⟩,
    hfail, hok⟩

end Sys2Proof.Machine

/-! PROOFS. The stepper axes, the sampling and the mapper: the arithmetic behind a pulse, a poll and a mapping. -/

namespace Sys2Proof.Machine

/-! ### Sampling and the motor enable -/

/-- Settles O18: the phase writes ENC and the switch registers, each poll by definition. -/
theorem samplingPhase : Obligations.SamplingPhase := by
  intro k s
  refine ⟨?_, fun sw => ?_, rfl⟩
  · rw [BitVec.ofInt_add, BitVec.ofInt_toInt, BitVec.ofInt_toInt]
    rfl
  · cases sw <;> exact ⟨rfl, rfl⟩

/-- Settles O20: by whether the dwell is over. -/
theorem motorEnableDwell : Obligations.MotorEnableDwell := by
  intro s
  rcases motorEnableUpdate_cases s with ⟨⟨hmode, hen, hdwell⟩, e⟩ | ⟨hnot, e⟩ <;> rw [e]
  · refine ⟨?_, rfl, rfl⟩
    rw [hen, decide_eq_true ⟨hmode, hdwell⟩]
    rfl
  · refine ⟨?_, rfl, rfl⟩
    cases hen : s.motor.en
    · rfl
    · rw [decide_eq_false fun h => hnot ⟨h.1, hen, h.2⟩]
      rfl

/-- From a counter at 0, a count of `j` or more means that the last `j` polls all sampled pressed (R152, R155). -/
theorem le_cnt_polls_iff {c : Config} {r : SwitchRegs} (h0 : r.cnt = 0) (polls : List Bool) :
    ∀ j ≤ c.debounceK, j ≤ (polls.foldl (fun q raw => q.poll c raw) r).cnt ↔
      j ≤ polls.length ∧ ∀ raw ∈ polls.drop (polls.length - j), raw = c.swActiveLevel := by
  induction polls using List.reverseRecOn with
  | nil => intro j _; simp [h0]
  | append_singleton polls x ih =>
    rintro (_ | j) hj
    · simp
    · have hcut : (polls ++ [x]).drop ((polls ++ [x]).length - (j + 1)) = polls.drop (polls.length - j) ++ [x] := by
        rw [List.length_append, List.length_singleton, Nat.add_sub_add_right,
          List.drop_append_of_le_length (Nat.sub_le _ _)]
      have hcnt : j + 1 ≤ ((polls ++ [x]).foldl (fun q raw => q.poll c raw) r).cnt ↔
          x = c.swActiveLevel ∧ j ≤ (polls.foldl (fun q raw => q.poll c raw) r).cnt := by
        rw [List.foldl_append, List.foldl_cons, List.foldl_nil, SwitchRegs.poll_cnt]
        split_ifs with hx
        · exact ⟨fun h => ⟨hx, by omega⟩, fun h => by omega⟩
        · exact ⟨fun h => by omega, fun h => absurd h.1 hx⟩
      rw [hcnt, hcut, ih j (by omega), List.length_append, List.length_singleton, Nat.add_le_add_iff_right]
      simp only [List.mem_append, List.mem_singleton, or_imp, forall_and, forall_eq]
      tauto

/-- A counter at 0 stays in range under polls (R50). -/
theorem cnt_polls_le {c : Config} {r : SwitchRegs} (h0 : r.cnt = 0) (polls : List Bool) :
    (polls.foldl (fun q raw => q.poll c raw) r).cnt ≤ c.debounceK := by
  induction polls using List.reverseRecOn with
  | nil => rw [List.foldl_nil, h0]; exact Nat.zero_le _
  | append_singleton polls x _ => rw [List.foldl_append]; exact SwitchRegs.poll_le _ _ _

/-- Settles O36: the counter is at DEBOUNCE_K exactly when it is at least that. -/
theorem debounceNeedsKPolls : Obligations.DebounceNeedsKPolls := by
  intro c r polls _ h0
  rw [← le_cnt_polls_iff h0 polls _ le_rfl]
  exact ⟨fun h => h.ge, (cnt_polls_le h0 polls).antisymm⟩

/-! ### Speed -/

/-- Settles O32: the clamp by its three cases, the interval from the range, and the frame of an axis's update. -/
theorem setSpeedClamps : Obligations.SetSpeedClamps := by
  intro s a v hvalid
  obtain ⟨-, ⟨hlo, hhi⟩, -⟩ := hvalid
  have hget : (setSpeed a v s).axes.get a = (s.axes.get a).setSpeed s.cfg v := PerAxis.get_set_self _ _ _
  rw [hget]
  refine ⟨?_, (AxisRegs.setSpeed_inRange hlo hhi v _).2.2, rfl, fun b hb => PerAxis.get_set_ne _ _ _ _ hb, rfl⟩
  rw [AxisRegs.setSpeed_spd_toNat hlo hhi, clamp]
  split_ifs <;> omega

/-! ### Pulses -/

/-- A pulse moves POS by one in ℤ, wrapped (R140). -/
theorem stepped_eq (d : Bool) (p : Word) : stepped d p = BitVec.ofInt 32 (p.toInt + if d then 1 else -1) := by
  rw [BitVec.ofInt_add, BitVec.ofInt_toInt]
  cases d
  · exact BitVec.sub_eq_add_neg p 1#32
  · rfl

/-- The registers after a pulse, in the words of the statements. -/
theorem AxisRegs.pulsed_eq (now : Word) (d : Bool) (r : AxisRegs) : r.pulsed now d = stepRegs now d r := by
  rw [stepRegs, ← stepped_eq]
  rfl

/-- A pulse toward the target brings POS one nearer, and cannot wrap (R139). -/
theorem distance_stepRegs {r : AxisRegs} (h : r.pos ≠ r.tgt) (now : Word) :
    distance (stepRegs now (decide (r.pos.toInt < r.tgt.toInt)) r) + 1 = distance r := by
  have hne : r.pos.toInt ≠ r.tgt.toInt := fun e => h (BitVec.eq_of_toInt_eq e)
  have hp1 := BitVec.le_toInt r.pos
  have hp2 := BitVec.toInt_lt (x := r.pos)
  have ht1 := BitVec.le_toInt r.tgt
  have ht2 := BitVec.toInt_lt (x := r.tgt)
  have hpos : (stepRegs now (decide (r.pos.toInt < r.tgt.toInt)) r).pos.toInt =
      r.pos.toInt + if r.pos.toInt < r.tgt.toInt then 1 else -1 := by
    simp only [stepRegs, decide_eq_true_eq]
    rw [BitVec.toInt_ofInt_eq_self (by decide)] <;> split_ifs <;> omega
  have htgt : (stepRegs now (decide (r.pos.toInt < r.tgt.toInt)) r).tgt = r.tgt := rfl
  rw [distance, distance, hpos, htgt]
  split_ifs <;> omega

/-- The output record after one pulse, in the words of the statements. -/
theorem pulse_out (a : Axis) (d : Bool) (s : State) :
    (pulse a d s).out = pulsedOut s.cfg d (fun b => decide (b = a)) s.out := by
  cases a <;> rfl

/-- A pulse leaves the other axis alone. -/
theorem pulse_axes_ne {a b : Axis} (hb : b ≠ a) (d : Bool) (s : State) : (pulse a d s).axes.get b = s.axes.get b :=
  PerAxis.get_set_ne _ _ _ _ hb

/-- A pulse makes its axis's registers those of one step. -/
theorem pulse_axes_self (a : Axis) (d : Bool) (s : State) :
    (pulse a d s).axes.get a = stepRegs s.now d (s.axes.get a) := by
  rw [← AxisRegs.pulsed_eq]
  exact PerAxis.get_set_self _ _ _

/-- A pulse changes the axes and the output record only. -/
theorem pulse_shape (a : Axis) (d : Bool) (s : State) :
    pulse a d s = { s with axes := (pulse a d s).axes, out := (pulse a d s).out } := rfl

/-- Settles O34: at the target or not ready nothing happens; otherwise it is one pulse, toward the target. -/
theorem stepTowardTargetNears : Obligations.StepTowardTargetNears := by
  intro s a
  refine ⟨fun h => ?stays, fun hpos hready => ?steps⟩
  case stays =>
    rcases stepTowardTarget_cases a s with ⟨-, e⟩ | ⟨hne, hr, -⟩
    · exact e
    · exact absurd hr (h.resolve_left hne).not_ge
  case steps =>
    have e : stepTowardTarget a s = pulse a (decide ((s.axes.get a).pos.toInt < (s.axes.get a).tgt.toInt)) s := by
      rw [stepTowardTarget, if_neg hpos, if_pos (show ready a s from hready)]
      rfl
    rw [e, pulse_axes_self]
    exact ⟨distance_stepRegs hpos _, rfl, pulse_out _ _ _, fun b hb => pulse_axes_ne hb _ _, pulse_shape _ _ _⟩

/-- Settles O35: one pulse where the axis is ready, and nothing where it is not. -/
theorem singleStepMoves : Obligations.SingleStepMoves := by
  intro s a forward
  refine ⟨fun h => ?stays, fun hready => ?steps⟩
  case stays => rw [singleStepAtSpeed, if_neg (show ¬ ready a s from h.not_ge)]
  case steps =>
    rw [singleStepAtSpeed, if_pos (show ready a s from hready), pulse_axes_self]
    exact ⟨rfl, rfl, fun b hb => pulse_axes_ne hb _ _, pulse_shape _ _ _⟩

/-! ### The mapper -/

/-- A mapping of an argument within a calibrated range is the exact quotient: nothing wraps (R162, R166). -/
theorem linearMap_toInt {x inHi outHi : Word} (hin : 0 < inHi.toInt) (hout : 0 < outHi.toInt) (h0 : 0 ≤ x.toInt)
    (hx : x.toInt ≤ inHi.toInt) :
    (linearMap x 0#32 inHi 0#32 outHi).toInt = x.toInt * outHi.toInt / inHi.toInt ∧
      0 ≤ x.toInt * outHi.toInt / inHi.toInt ∧ x.toInt * outHi.toInt / inHi.toInt ≤ outHi.toInt := by
  have hne : inHi ≠ 0#32 := by rintro rfl; exact absurd hin (by decide)
  have hnn : 0 ≤ x.toInt * outHi.toInt := mul_nonneg h0 hout.le
  have hlo : 0 ≤ x.toInt * outHi.toInt / inHi.toInt := Int.ediv_nonneg hnn hin.le
  have hhi : x.toInt * outHi.toInt / inHi.toInt ≤ outHi.toInt :=
    Int.ediv_le_of_le_mul hin (by rw [mul_comm outHi.toInt]; exact mul_le_mul_of_nonneg_right hx hout.le)
  have hlt := BitVec.toInt_lt (x := outHi)
  refine ⟨?_, hlo, hhi⟩
  rw [linearMap_zero, if_neg hne, wrap32, Int.tdiv_eq_ediv_of_nonneg hnn,
    BitVec.toInt_ofInt_eq_self (by decide) (by omega) (by omega)]

section
variable {s : State} (hE : 0 < s.cal.maxEnc.toInt) (hA : 0 < s.cal.maxAng.toInt)
include hE hA

theorem encoderToAnglePos_toInt {c : Word} (h0 : 0 ≤ c.toInt) (hc : c.toInt ≤ s.cal.maxEnc.toInt) :
    (encoderToAnglePos c s).toInt = c.toInt * s.cal.maxAng.toInt / s.cal.maxEnc.toInt ∧
      0 ≤ c.toInt * s.cal.maxAng.toInt / s.cal.maxEnc.toInt ∧
      c.toInt * s.cal.maxAng.toInt / s.cal.maxEnc.toInt ≤ s.cal.maxAng.toInt := linearMap_toInt hE hA h0 hc

theorem anglePosToEncoder_toInt {p : Word} (h0 : 0 ≤ p.toInt) (hp : p.toInt ≤ s.cal.maxAng.toInt) :
    (anglePosToEncoder p s).toInt = p.toInt * s.cal.maxEnc.toInt / s.cal.maxAng.toInt :=
  (linearMap_toInt hA hE h0 hp).1

/-- The round trip of a count, as two exact quotients. -/
theorem roundTrip_toInt {c : Word} (h0 : 0 ≤ c.toInt) (hc : c.toInt ≤ s.cal.maxEnc.toInt) :
    (anglePosToEncoder (encoderToAnglePos c s) s).toInt =
      c.toInt * s.cal.maxAng.toInt / s.cal.maxEnc.toInt * s.cal.maxEnc.toInt / s.cal.maxAng.toInt := by
  obtain ⟨hpos, hlo, hhi⟩ := encoderToAnglePos_toInt hE hA h0 hc
  rw [anglePosToEncoder_toInt hE hA (by rw [hpos]; exact hlo) (by rw [hpos]; exact hhi), hpos]

end

/-- Dividing by E and multiplying back loses less than E, so dividing by A loses nothing where E divides A, at most one
where E ≤ A, and never gains (R166). -/
theorem roundTrip_quotient {c A E : Int} (hE : 0 < E) (hA : 0 < A) :
    c * A / E * E / A ≤ c ∧ (E ∣ A → c * A / E * E / A = c) ∧ (E ≤ A → c - 1 ≤ c * A / E * E / A) := by
  refine ⟨?_, ?_, fun hle => ?_⟩
  · exact Int.ediv_le_of_le_mul hA (Int.ediv_mul_le _ hE.ne')
  · rintro ⟨k, rfl⟩
    rw [mul_left_comm, Int.mul_ediv_cancel_left _ hE.ne', mul_assoc, mul_comm k E, Int.mul_ediv_cancel _ hA.ne']
  · have hloss := Int.lt_ediv_add_one_mul_self (c * A) hE
    refine Int.le_ediv_of_mul_le hA ?_
    rw [add_mul, one_mul] at hloss
    rw [sub_mul, one_mul]
    omega

/-- Settles O37: the mappings for all arguments by definition; within the calibrated range they are exact quotients,
which compose as `roundTrip_quotient` says and are monotonic; the examples are evaluated. -/
theorem mapperRoundTrip : Obligations.MapperRoundTrip := by
  refine ⟨fun _ _ _ _ _ => rfl, fun s x => ⟨linearMap_zero _ _ _, linearMap_zero _ _ _⟩,
    fun s c hE hA h0 hc => ?trip, fun s x y hE hA h0 hxy => ⟨fun hy => ?encMono, fun hy => ?posMono⟩,
    fun s hE hA => ?inexact, fun s hE hA => ?three⟩
  case trip =>
    obtain ⟨hle, hdvd, hone⟩ := roundTrip_quotient (c := c.toInt) hE hA
    have htrip := roundTrip_toInt hE hA h0 hc
    rw [← htrip] at hle hdvd hone
    refine ⟨hle, fun h => BitVec.eq_of_toInt_eq (hdvd h), fun h => ?_⟩
    rcases hle.lt_or_eq with hlt | heq
    · exact .inr (by have := hone h; omega)
    · exact .inl (BitVec.eq_of_toInt_eq heq)
  case encMono =>
    rw [(encoderToAnglePos_toInt hE hA h0 (hxy.trans hy)).1, (encoderToAnglePos_toInt hE hA (h0.trans hxy) hy).1]
    exact Int.ediv_le_ediv hE (mul_le_mul_of_nonneg_right hxy hA.le)
  case posMono =>
    rw [anglePosToEncoder_toInt hE hA h0 (hxy.trans hy), anglePosToEncoder_toInt hE hA (h0.trans hxy) hy]
    exact Int.ediv_le_ediv hA (mul_le_mul_of_nonneg_right hxy hE.le)
  case inexact =>
    rcases hA with hA | hA <;> rw [encoderToAnglePos, anglePosToEncoder, hE, hA] <;> decide
  case three => rw [encoderToAnglePos, anglePosToEncoder, hE, hA]; decide

end Sys2Proof.Machine

/-! PROOFS. The waypoint queue as a list: the ring's indices, and what an enqueue and a dequeue make of the live
waypoints. -/

namespace Sys2Proof.Machine

/-- An index of the ring, with the wrap said as a subtraction. -/
theorem ringIndex_eq {n a k : Nat} (ha : a < n) (hk : k ≤ n) : (a + k) % n = if a + k < n then a + k else a + k - n := by
  split_ifs with h
  · exact Nat.mod_eq_of_lt h
  · rw [Nat.mod_eq_sub_mod (by omega), Nat.mod_eq_of_lt (by omega)]

/-- The occupancy, with the wrap said as a case (R172). -/
theorem qCount_eq {s : State} (hq : QueueInRange s) :
    qCount s =
      if s.queue.head ≤ s.queue.tail then s.queue.tail - s.queue.head
      else s.queue.tail + (s.cfg.queueN - s.queue.head) := by
  obtain ⟨-, hhead, htail⟩ := hq
  split_ifs with h
  · exact qCount_of_head_le_tail htail h
  · exact qCount_of_tail_lt_head hhead (by omega)

/-- The first slot past the live ones is the one at TAIL. -/
theorem ringIndex_qCount {s : State} (hq : QueueInRange s) : (s.queue.head + qCount s) % s.cfg.queueN = s.queue.tail := by
  have ⟨_, hhead, htail⟩ := hq
  rw [ringIndex_eq hhead (qCount_lt (by omega)).le, qCount_eq hq]
  split_ifs <;> omega

/-- The slot at TAIL is not live. -/
theorem ringIndex_ne_tail {s : State} (hq : QueueInRange s) {k : Nat} (hk : k < qCount s) :
    (s.queue.head + k) % s.cfg.queueN ≠ s.queue.tail := by
  have ⟨_, hhead, htail⟩ := hq
  have hlt := qCount_lt (s := s) (by omega)
  rw [ringIndex_eq hhead (by omega)]
  rw [qCount_eq hq] at hk hlt
  split_ifs at * <;> omega

/-! ### Enqueue -/

/-- The state after an enqueue on a queue that is not full (R173). -/
def enqueued (w : Waypoint) (s : State) : State :=
  { s with queue := ⟨s.queue.slots.set s.queue.tail w, s.queue.head, nextIndex s.cfg s.queue.tail⟩ }

theorem enqueued_inRange {s : State} (hq : QueueInRange s) (w : Waypoint) : QueueInRange (enqueued w s) := by
  obtain ⟨hlen, hhead, htail⟩ := hq
  exact ⟨by rw [enqueued, List.length_set]; exact hlen, hhead, nextIndex_lt (Nat.zero_lt_of_lt hhead) _⟩

/-- An enqueue makes one more slot live. -/
theorem qCount_enqueued {s : State} (hq : QueueInRange s) (hfull : ¬ qFull s) (w : Waypoint) :
    qCount (enqueued w s) = qCount s + 1 := by
  have hnext : (enqueued w s).queue.tail = if s.queue.tail + 1 < s.cfg.queueN then s.queue.tail + 1 else
      s.queue.tail + 1 - s.cfg.queueN := ringIndex_eq hq.2.2 (by have := hq.2.2; omega)
  have hhead : (enqueued w s).queue.head = s.queue.head := rfl
  have hcfg : (enqueued w s).cfg = s.cfg := rfl
  rw [qCount_eq (enqueued_inRange hq w), qCount_eq hq, hnext, hhead, hcfg]
  obtain ⟨-, hlt, htail⟩ := hq
  rw [qFull_iff htail] at hfull
  split_ifs <;> omega

/-- An enqueue writes no live slot. -/
theorem enqueued_slots {s : State} (hq : QueueInRange s) (w : Waypoint) {k : Nat} (hk : k < qCount s) :
    (enqueued w s).queue.slots[(s.queue.head + k) % s.cfg.queueN]? =
      s.queue.slots[(s.queue.head + k) % s.cfg.queueN]? :=
  List.getElem?_set_ne (ringIndex_ne_tail hq hk).symm

/-- An enqueue appends to the live waypoints. -/
theorem liveWaypoints_enqueued {s : State} (hq : QueueInRange s) (hfull : ¬ qFull s) (w : Waypoint) :
    liveWaypoints (enqueued w s) = liveWaypoints s ++ [w] := by
  have hold : ∀ k ∈ List.range (qCount s),
      (enqueued w s).queue.slots.getD ((s.queue.head + k) % s.cfg.queueN) Waypoint.zero =
        s.queue.slots.getD ((s.queue.head + k) % s.cfg.queueN) Waypoint.zero := by
    intro k hk
    rw [List.getD_eq_getElem?_getD, enqueued_slots hq w (List.mem_range.1 hk), ← List.getD_eq_getElem?_getD]
  have hnew : (enqueued w s).queue.slots.getD ((s.queue.head + qCount s) % s.cfg.queueN) Waypoint.zero = w := by
    rw [ringIndex_qCount hq, List.getD_eq_getElem?_getD]
    simp only [enqueued]
    rw [List.getElem?_set_self (by rw [hq.1]; exact hq.2.2), Option.getD_some]
  rw [liveWaypoints, qCount_enqueued hq hfull, List.range_succ, List.map_append, List.map_singleton]
  exact congrArg₂ (· ++ ·) (List.map_congr_left hold) (congrArg (fun x => [x]) hnew)

/-! ### Dequeue and peek -/

/-- The state after a dequeue of a queue that is not empty (R175). -/
def dequeued (s : State) : State := { s with queue := { s.queue with head := nextIndex s.cfg s.queue.head } }

theorem dequeued_inRange {s : State} (hq : QueueInRange s) : QueueInRange (dequeued s) := by
  obtain ⟨hlen, hhead, htail⟩ := hq
  exact ⟨hlen, nextIndex_lt (Nat.zero_lt_of_lt hhead) _, htail⟩

/-- A dequeue makes one slot fewer live. -/
theorem qCount_dequeued {s : State} (hq : QueueInRange s) (hne : ¬ qEmpty s) : qCount (dequeued s) + 1 = qCount s := by
  have hnext : (dequeued s).queue.head = if s.queue.head + 1 < s.cfg.queueN then s.queue.head + 1 else
      s.queue.head + 1 - s.cfg.queueN := ringIndex_eq hq.2.1 (by have := hq.2.1; omega)
  have htail : (dequeued s).queue.tail = s.queue.tail := rfl
  have hcfg : (dequeued s).cfg = s.cfg := rfl
  rw [qCount_eq (dequeued_inRange hq), qCount_eq hq, hnext, htail, hcfg]
  obtain ⟨-, hhead, hlt⟩ := hq
  rw [qEmpty] at hne
  split_ifs <;> omega

/-- A dequeue drops the first of the live waypoints. -/
theorem liveWaypoints_dequeued {s : State} (hq : QueueInRange s) (hne : ¬ qEmpty s) :
    liveWaypoints (dequeued s) = (liveWaypoints s).tail := by
  rw [liveWaypoints, liveWaypoints, ← qCount_dequeued hq hne, List.range_succ_eq_map, List.map_cons, List.tail_cons,
    List.map_map]
  refine List.map_congr_left fun k _ => ?_
  show s.queue.slots.getD ((nextIndex s.cfg s.queue.head + k) % s.cfg.queueN) Waypoint.zero =
    s.queue.slots.getD ((s.queue.head + (k + 1)) % s.cfg.queueN) Waypoint.zero
  rw [nextIndex, Nat.mod_add_mod, Nat.add_assoc, Nat.add_comm 1 k]

theorem liveWaypoints_of_empty {s : State} (hq : QueueInRange s) (he : qEmpty s) : liveWaypoints s = [] := by
  rw [liveWaypoints, (qCount_eq_zero_iff hq).2 he, List.range_zero, List.map_nil]

/-- The waypoint at HEAD is the first of the live ones. -/
theorem peekNext_eq_head? {s : State} (hq : QueueInRange s) : peekNext s = (liveWaypoints s).head? := by
  by_cases he : qEmpty s
  · rw [peekNext, if_pos he, liveWaypoints_of_empty hq he, List.head?_nil]
  · have ⟨hlen, hhead, _⟩ := hq
    have hslot : s.queue.head < s.queue.slots.length := by rw [hlen]; exact hhead
    rw [peekNext, if_neg he, qRead, liveWaypoints, ← qCount_dequeued hq he, List.range_succ_eq_map, List.map_cons,
      List.head?_cons, Nat.add_zero, Nat.mod_eq_of_lt hhead, List.getD_eq_getElem?_getD,
      List.getElem?_eq_getElem hslot, Option.getD_some]

/-- Settles O39: the enqueue appends, the peek is the head, and the dequeue drops it. -/
theorem queueIsFifo : Obligations.QueueIsFifo := by
  intro s hq _
  refine ⟨fun w hfull => ?room, fun w hfull => ?full, peekNext_eq_head? hq, ?_⟩
  case room =>
    have hslot : s.queue.tail < s.queue.slots.length := by rw [hq.1]; exact hq.2.2
    exact ⟨enqueued w s, tryEnqueue_of_slot hfull hslot, enqueued_inRange hq w, liveWaypoints_enqueued hq hfull w⟩
  case full => rw [tryEnqueue, if_pos hfull]
  by_cases he : qEmpty s
  · rw [tryDequeue, if_pos he, liveWaypoints_of_empty hq he]
    exact ⟨hq, rfl⟩
  · have hd : tryDequeue s = dequeued s := by rw [tryDequeue_eq, if_neg he]; rfl
    rw [hd]
    exact ⟨dequeued_inRange hq, liveWaypoints_dequeued hq he⟩

end Sys2Proof.Machine

/-! PROOFS. Drawing and the angle corrector: the thresholds in ℤ, each kind of Drawing step, and what a Drawing step
does not read. -/

namespace Sys2Proof.Machine

/-- The distance of two int32 values, in ℤ. -/
theorem natCast_absDiff (x y : Word) : (absDiff x y : Int) = |x.toInt - y.toInt| := Int.natCast_natAbs _

/-- The threshold of R183 in ℤ, as the statements write it. -/
theorem within_iff_halfUnitNear {s : State} {pos : Word} :
    within (encoderToAnglePos s.enc s) pos s ↔ HalfUnitNear s pos := by
  rw [HalfUnitNear, ← natCast_absDiff, Int.abs_eq_natAbs, Int.abs_eq_natAbs, within]
  norm_cast

/-- An inactive corrector completes at once (R182). -/
theorem arrivalCheck_of_inactive {s : State} (h : ¬ corrActive s) : arrivalCheck s = (s, .complete) := if_pos h

/-- An inactive corrector abandons the correction (R186). -/
theorem correctionStep_of_inactive {s : State} (h : ¬ corrActive s) :
    correctionStep s = ({ s with draw := { s.draw with corr := false } }, .complete) := if_pos h

/-- At the target count the correction converges (R185). -/
theorem correctionStep_of_target {s : State} (h : corrActive s) (he : s.enc = anglePosToEncoder s.axes.ang.tgt s) :
    correctionStep s = (converge s, .complete) := by
  rw [correctionStep, if_neg (not_not.2 h), if_pos he]

/-- Off the target count the correction takes one paced step toward it (R184). -/
theorem correctionStep_of_off {s : State} (h : corrActive s) (he : s.enc ≠ anglePosToEncoder s.axes.ang.tgt s) :
    correctionStep s =
      (singleStepAtSpeed .ang (decide (s.enc.toInt < (anglePosToEncoder s.axes.ang.tgt s).toInt)) s, .goOn) := by
  rw [correctionStep, if_neg (not_not.2 h), if_neg he]
  rfl

/-- Settles O41: an inactive corrector completes; an active one goes by the threshold. -/
theorem arrivalCheckGates : Obligations.ArrivalCheckGates := by
  intro s
  refine ⟨fun hoff => ?inactive, fun hen he ha => ⟨fun hnear => ?near, fun hfar => ?far⟩⟩
  case inactive =>
    refine arrivalCheck_of_inactive ?_
    rintro ⟨hen, he, ha⟩
    simp [hen, he, ha] at hoff
  case near =>
    rcases arrivalCheck_cases s with ⟨e, -⟩ | ⟨-, hfar, -⟩
    · exact e
    · exact absurd (within_iff_halfUnitNear.2 hnear) hfar
  case far =>
    rcases arrivalCheck_cases s with ⟨-, hnear⟩ | ⟨-, -, e⟩
    · exact absurd (within_iff_halfUnitNear.1 (hnear ⟨hen, he, ha⟩)) hfar.not_gt
    · exact e

/-! ### Each kind of Drawing step -/

/-- A correction takes its step (R207). -/
theorem drawRun_of_corr {s : State} (hloaded : s.draw.loaded = true) (hcorr : s.draw.corr = true) :
    drawRun s = .next (completeIf (correctionStep s)) := by
  rw [drawRun, if_neg (by simp [hloaded]), if_pos hcorr]

/-- With a waypoint loaded and no correction, the axes step (R207). -/
theorem drawRun_of_stepping {s : State} (hloaded : s.draw.loaded = true) (hcorr : s.draw.corr = false) :
    drawRun s = .next (stepAxes s) := by
  rw [drawRun, if_neg (by simp [hloaded]), if_neg (by simp [hcorr])]

/-- With nothing loaded, the waypoint at HEAD is loaded (R207). -/
theorem drawRun_of_loading {s : State} {w : Waypoint} (hloaded : s.draw.loaded = false) (hne : ¬ qEmpty s)
    (hw : s.queue.slots[s.queue.head]? = some w) : drawRun s = .next (loadWaypoint w s) := by
  rw [drawRun, if_pos hloaded, if_neg hne, peekNext, if_neg hne, qRead, hw]

/-- In Drawing without a hold, the mode step is `drawRun` (R192, R207). -/
theorem modeStep_eq_drawRun {s : State} (hmode : s.mode = .drawing) (hsettle : s.draw.settle = false) :
    modeStep s = drawRun s := (modeStep_of_drawing hmode).trans (drawStep_of_not_settle hsettle)

/-- A completion on a queue that is not empty (R212). -/
theorem complete_of_not_empty {s : State} (hne : ¬ qEmpty s) :
    complete s = { s with
      queue := { s.queue with head := (s.queue.head + 1) % s.cfg.queueN }
      draw := { s.draw with loaded := false } } := by
  rw [complete_eq, if_neg hne, nextIndex]

/-- Settles O42: the three cases of a correction step, and the completion after the first two. -/
theorem correctionStepCases : Obligations.CorrectionStepCases := by
  refine ⟨fun s => ⟨correctionStep_of_inactive, correctionStep_of_target, correctionStep_of_off⟩, fun s hmode hloaded hcorr hsettle hne => ?_⟩
  rw [modeStep_eq_drawRun hmode hsettle, drawRun_of_corr hloaded hcorr]
  refine ⟨fun h => ?_, fun h he => ?_, fun h he => ?_⟩
  · rw [correctionStep_of_inactive h]
    exact congrArg Host.Outcome.next (complete_of_not_empty hne)
  · rw [correctionStep_of_target h he]
    exact congrArg Host.Outcome.next (complete_of_not_empty hne)
  · rw [correctionStep_of_off h he, completeIf_goOn]

/-- Settles O53: the load's targets and speeds, then the two cases of the pen. -/
theorem drawingLoadsWaypoint : Obligations.DrawingLoadsWaypoint := by
  intro s w hmode hloaded hsettle hne hw
  refine ⟨_, (modeStep_eq_drawRun hmode hsettle).trans (drawRun_of_loading hloaded hne hw), ?_⟩
  rw [loadWaypoint_eq, ← natCast_absDiff, Nat.cast_lt, Nat.cast_le]
  rcases penUpdate_cases w.pen { s with
      axes := ⟨{ s.axes.amp.setSpeed s.cfg w.vamp with tgt := w.amp },
        { s.axes.ang.setSpeed s.cfg w.vang with tgt := w.ang }⟩ } with ⟨hpen, e⟩ | ⟨hpen, e⟩ <;> rw [e]
  · exact ⟨rfl, rfl, rfl, rfl, rfl, hmode, rfl, fun _ => ⟨rfl, rfl, rfl, rfl, rfl⟩,
      fun hv hle => absurd hle (hpen.resolve_left (by simp [hv])).not_ge⟩
  · exact ⟨rfl, rfl, rfl, rfl, rfl, hmode, rfl, fun h => absurd h hpen, fun _ _ => ⟨rfl, rfl⟩⟩

/-- Settles O54: the hold lasts, or it is over and its flag is cleared, after which there is none. -/
theorem settleHoldsThenGoesOn : Obligations.SettleHoldsThenGoesOn := by
  intro s hmode hsettle
  rw [modeStep_of_drawing hmode]
  refine ⟨fun hlt => if_pos ⟨hsettle, hlt⟩, fun hle => ?_⟩
  rw [drawStep, if_neg fun h => absurd hle h.2.not_ge]
  exact (modeStep_eq_drawRun (s := { s with draw := { s.draw with settle := false } }) hmode rfl).symm

/-- A stepping call changes the axes and the output record only. -/
theorem stepTowardTarget_shape (a : Axis) (s : State) :
    stepTowardTarget a s =
      { s with axes := (stepTowardTarget a s).axes, out := (stepTowardTarget a s).out } := by
  rcases stepTowardTarget_cases a s with ⟨-, e⟩ | ⟨-, -, e⟩ <;> rw [e]
  exact pulse_shape _ _ _

/-- Settles O55: both stepping calls, then the arrival check where both axes are at their targets. -/
theorem drawingStepsAndCompletes : Obligations.DrawingStepsAndCompletes := by
  intro s hmode hloaded hcorr hsettle hne
  refine ⟨stepAxes s, (modeStep_eq_drawRun hmode hsettle).trans (drawRun_of_stepping hloaded hcorr), ?_⟩
  obtain ⟨ax, o, hu⟩ : ∃ ax o, stepTowardTarget .ang (stepTowardTarget .amp s) = { s with axes := ax, out := o } :=
    ⟨_, _, by rw [stepTowardTarget_shape .ang, stepTowardTarget_shape .amp]⟩
  rcases stepAxes_cases s with ⟨t, ht, hamp, hang, e⟩ | ⟨t, ht, hnot, e⟩ <;> rw [e, ht, hu] <;> rw [hu] at ht <;>
    subst ht
  · rcases arrivalCheck_cases { s with axes := ax, out := o } with ⟨ea, hnear⟩ | ⟨hact, hfar, ea⟩ <;> rw [ea]
    · rw [completeIf_complete, complete_of_not_empty (s := { s with axes := ax, out := o }) hne]
      exact ⟨rfl, rfl, rfl, fun _ => ⟨fun _ => ⟨rfl, rfl⟩,
        fun hact hfar => absurd (within_iff_halfUnitNear.1 (hnear hact)) hfar⟩, fun h => absurd ⟨hamp, hang⟩ h⟩
    · rw [completeIf_goOn]
      exact ⟨rfl, rfl, rfl, fun _ => ⟨fun h => (h.elim (absurd hact) fun hnear =>
        absurd (within_iff_halfUnitNear.2 hnear) hfar), fun _ _ => ⟨rfl, rfl⟩⟩, fun h => absurd ⟨hamp, hang⟩ h⟩
  · exact ⟨rfl, rfl, rfl, fun h => absurd h hnot, fun _ => ⟨rfl, rfl⟩⟩

/-! ### What a Drawing step does not read -/

/-- The state with another encoder count and other switch registers. -/
def withInputs (e : Word → Word) (v : PerSwitch SwitchRegs → PerSwitch SwitchRegs) (s : State) : State :=
  { s with enc := e s.enc, sw := v s.sw }

section
variable (e : Word → Word) (v : PerSwitch SwitchRegs → PerSwitch SwitchRegs) (s : State)

theorem stepTowardTarget_withInputs (a : Axis) :
    stepTowardTarget a (withInputs e v s) = withInputs e v (stepTowardTarget a s) := by
  unfold stepTowardTarget
  rw [apply_ite (withInputs e v), apply_ite (withInputs e v)]
  rfl

theorem singleStepAtSpeed_withInputs (a : Axis) (d : Bool) :
    singleStepAtSpeed a d (withInputs e v s) = withInputs e v (singleStepAtSpeed a d s) := by
  unfold singleStepAtSpeed
  rw [apply_ite (withInputs e v)]
  rfl

theorem completeIf_withInputs (x : State × Verdict) :
    completeIf (withInputs e v x.1, x.2) = withInputs e v (completeIf x) := by
  obtain ⟨s, _ | _⟩ := x
  · rw [completeIf_complete, completeIf_complete, complete_eq, complete_eq, apply_ite (withInputs e v)]
    rfl
  · rfl

theorem loadWaypoint_withInputs (w : Waypoint) :
    loadWaypoint w (withInputs e v s) = withInputs e v (loadWaypoint w s) := by
  unfold loadWaypoint penUpdate
  rw [apply_ite (State.onDraw _), apply_ite (State.onDraw _), apply_ite (withInputs e v)]
  rfl

variable {e s} (h : e = id ∨ ¬ corrActive s)
include h

theorem arrivalCheck_withInputs :
    arrivalCheck (withInputs e v s) = (withInputs e v (arrivalCheck s).1, (arrivalCheck s).2) := by
  rcases h with rfl | h
  · rcases arrivalCheck_cases s with ⟨e, hnear⟩ | ⟨hact, hfar, e⟩ <;> rw [e]
    · by_cases hact : corrActive s
      · exact (if_neg (not_not.2 hact)).trans (if_pos (hnear hact))
      · exact arrivalCheck_of_inactive hact
    · exact (if_neg (not_not.2 hact)).trans (if_neg hfar)
  · rw [arrivalCheck_of_inactive h]
    exact arrivalCheck_of_inactive h

theorem correctionStep_withInputs :
    correctionStep (withInputs e v s) = (withInputs e v (correctionStep s).1, (correctionStep s).2) := by
  by_cases hact : corrActive s
  · obtain rfl := h.resolve_right (not_not.2 hact)
    by_cases he : s.enc = anglePosToEncoder s.axes.ang.tgt s
    · rw [correctionStep_of_target hact he]
      exact correctionStep_of_target hact he
    · rw [correctionStep_of_off hact he, ← singleStepAtSpeed_withInputs]
      exact correctionStep_of_off hact he
  · rw [correctionStep_of_inactive hact]
    exact correctionStep_of_inactive hact

theorem stepAxes_withInputs : stepAxes (withInputs e v s) = withInputs e v (stepAxes s) := by
  have hboth : stepTowardTarget .ang (stepTowardTarget .amp (withInputs e v s)) =
      withInputs e v (stepTowardTarget .ang (stepTowardTarget .amp s)) := by
    rw [stepTowardTarget_withInputs, stepTowardTarget_withInputs]
  have hact : e = id ∨ ¬ corrActive (stepTowardTarget .ang (stepTowardTarget .amp s)) := by
    rw [stepTowardTarget_shape .ang, stepTowardTarget_shape .amp]
    exact h
  simp only [stepAxes, hboth]
  rw [arrivalCheck_withInputs v hact, completeIf_withInputs, apply_ite (withInputs e v)]
  rfl

/-- A Drawing step reads the encoder count only where the corrector is active, and the switches nowhere. -/
theorem drawRun_withInputs {t : State} (hrun : drawRun s = .next t) :
    drawRun (withInputs e v s) = .next (withInputs e v t) := by
  rcases drawRun_cases s with ⟨hl, he, r⟩ | ⟨hl, he, w, hw, r⟩ | ⟨-, -, -, r⟩ | ⟨hl, hc, r⟩ | ⟨hl, hc, r⟩ <;>
    rw [r] at hrun <;> cases hrun
  · exact drawRun_of_empty hl he
  · rw [← loadWaypoint_withInputs]
    exact drawRun_of_loading hl he hw
  · rw [← completeIf_withInputs, ← correctionStep_withInputs v h]
    exact drawRun_of_corr hl hc
  · rw [← stepAxes_withInputs v h]
    exact drawRun_of_stepping hl hc

theorem drawStep_withInputs {t : State} (hstep : drawStep s = .next t) :
    drawStep (withInputs e v s) = .next (withInputs e v t) := by
  rcases drawStep_cases s with ⟨hs, r⟩ | ⟨hs, r⟩ <;> rw [r] at hstep
  · cases hstep
    exact if_pos hs
  · exact (if_neg hs).trans (drawRun_withInputs v (s := { s with draw := { s.draw with settle := false } }) h hstep)

end

/-- The same of the mode step in Drawing. -/
theorem modeStep_withInputs {s t : State} {e : Word → Word} (v : PerSwitch SwitchRegs → PerSwitch SwitchRegs)
    (hmode : s.mode = .drawing) (h : e = id ∨ ¬ corrActive s) (hstep : modeStep s = .next t) :
    modeStep (withInputs e v s) = .next (withInputs e v t) := by
  have hmode' : (withInputs e v s).mode = .drawing := hmode
  rw [modeStep_of_drawing hmode] at hstep
  rw [modeStep_of_drawing hmode']
  exact drawStep_withInputs v h hstep

/-- Settles O57: the corrector is not active, so the encoder count may be any other. -/
theorem inactiveCorrectorIgnoresEncoder : Obligations.InactiveCorrectorIgnoresEncoder := by
  intro s t e hmode hoff hstep
  exact modeStep_withInputs (e := fun _ => e) id hmode (.inr hoff) hstep

/-- Settles O58: Idle does nothing, and Drawing reads no switch. -/
theorem switchesMatterOnlyInSweeps : Obligations.SwitchesMatterOnlyInSweeps := by
  intro s t sw hmode hstep
  rcases hmode with hmode | hmode
  · have hidle {u : State} (hu : u.mode = .idle) : modeStep u = .next u := by rw [modeStep, hu]
    rw [hidle hmode, Host.Outcome.next.injEq] at hstep
    rw [← hstep]
    exact hidle hmode
  · exact modeStep_withInputs (fun _ => sw) hmode (.inl rfl) hstep

end Sys2Proof.Machine

/-! PROOFS. The sweeps: a homing and a max-phase tick, register by register, from the part of each axis; and the mode
transitions. -/

namespace Sys2Proof.Machine

/-! ### The output of two axes -/

/-- With no axis stepping the output record stays. -/
theorem pulsedOut_none {steps : Axis → Bool} (h : ∀ a, steps a = false) (c : Config) (d : Bool) (o : TickOut) :
    pulsedOut c d steps o = o := by
  simp [pulsedOut, h]

/-- The pulses of AMP, then those of ANG, are the pulses of both (R216). -/
theorem pulsedOut_amp_ang (c : Config) (d : Bool) (steps : Axis → Bool) (o : TickOut) :
    pulsedOut c d (fun b => decide (b = .ang) && steps .ang)
      (pulsedOut c d (fun b => decide (b = .amp) && steps .amp) o) = pulsedOut c d steps o := by
  cases hamp : steps .amp <;> cases hang : steps .ang <;> simp [pulsedOut, hamp, hang]

/-- A register pair that is both true. -/
theorem PerAxis.eq_true_iff {p : PerAxis Bool} : p = ⟨true, true⟩ ↔ p.amp = true ∧ p.ang = true := by
  obtain ⟨x, y⟩ := p
  exact PerAxis.mk.injEq _ _ _ _ ▸ Iff.rfl

theorem PerAxis.set_get {α : Type} (p : PerAxis α) (a : Axis) : p.set a (p.get a) = p := by
  cases a <;> rfl

/-- A pulse, in the words of the statements. -/
theorem pulse_eq_stepRegs (a : Axis) (d : Bool) (s : State) :
    pulse a d s = { s with
      axes := s.axes.set a (stepRegs s.now d (s.axes.get a))
      out := pulsedOut s.cfg d (fun b => decide (b = a)) s.out } := by
  rw [pulse_shape, pulse_out, ← AxisRegs.pulsed_eq]
  rfl

/-! ### One axis's part of a homing tick -/

/-- The reference an axis is snapped to (R200, R201). -/
def homeRef (s : State) : Axis → Word
  | .amp => s.cal.minAmp
  | .ang => 0#32

/-- The encoder count after an axis's part of a homing tick: the snap of ANG resets it (R201). -/
def homeEnc (s : State) : Axis → Word
  | .amp => s.enc
  | .ang => if snapsNow s .ang then 0#32 else s.enc

theorem homeEnc_of_not_snap {s : State} {a : Axis} (h : snapsNow s a = false) : homeEnc s a = s.enc := by
  cases a
  · rfl
  · rw [homeEnc, h]
    rfl

/-- One axis's part of a homing tick, register by register. -/
def homingPart (a : Axis) (s : State) : State :=
  { s with
    axes := s.axes.set a
      (if snapsNow s a then { s.axes.get a with pos := homeRef s a, tgt := homeRef s a }
        else if homesNow s a then stepRegs s.now false (s.axes.get a) else s.axes.get a)
    enc := homeEnc s a
    sweep := { s.sweep with homed := s.sweep.homed.set a (s.sweep.homed.get a || snapsNow s a) }
    out := pulsedOut s.cfg false (fun b => decide (b = a) && homesNow s a) s.out }

theorem snapsNow_iff {s : State} {a : Axis} :
    snapsNow s a = true ↔ s.sweep.homed.get a = false ∧ debPressed (zeroSwitch a) s := by
  simp only [snapsNow, Bool.and_eq_true, Bool.not_eq_true', decide_eq_true_eq]
  cases a <;> exact Iff.rfl

theorem homesNow_iff {s : State} {a : Axis} :
    homesNow s a = true ↔ s.sweep.homed.get a = false ∧ snapsNow s a = false ∧ ready a s := by
  simp only [homesNow, ready, AxisRegs.ready, elapsed, Bool.and_eq_true, Bool.not_eq_true', decide_eq_true_eq,
    and_assoc]

/-- An axis's part of a homing tick where it does nothing. -/
theorem homingPart_of_still {a : Axis} {s : State} (hsnap : snapsNow s a = false) (hstep : homesNow s a = false) :
    homingPart a s = s := by
  have hout : pulsedOut s.cfg false (fun b => decide (b = a) && homesNow s a) s.out = s.out :=
    pulsedOut_none (by simp [hstep]) _ _ _
  rw [homingPart, hout, homeEnc_of_not_snap hsnap, hsnap, hstep, Bool.or_false, PerAxis.set_get,
    if_neg (by decide), if_neg (by decide), PerAxis.set_get]

/-- HomeStep's part for an axis is that (R199). -/
theorem homeAxis_eq (a : Axis) (s : State) : homeAxis a s = homingPart a s := by
  have snap_false {h : Bool} (hs : s.sweep.homed.get a = h) (hn : h = true ∨ ¬ debPressed (zeroSwitch a) s) :
      snapsNow s a = false := by
    rw [← Bool.not_eq_true, snapsNow_iff]
    rintro ⟨h0, hp⟩
    rcases hn with rfl | hn
    · rw [hs] at h0; exact absurd h0 (by decide)
    · exact hn hp
  rcases homeAxis_cases a s with ⟨hh, e⟩ | ⟨hh, hp, e⟩ | ⟨hh, hp, hr, e⟩ | ⟨hh, hp, hr, e⟩ <;> rw [e]
  · refine (homingPart_of_still (snap_false hh (.inl rfl)) ?_).symm
    rw [← Bool.not_eq_true, homesNow_iff, hh]
    exact fun h => absurd h.1 (by decide)
  · have hsnap := snapsNow_iff.2 ⟨hh, hp⟩
    have hstep : homesNow s a = false := by
      rw [← Bool.not_eq_true, homesNow_iff, hsnap]
      exact fun h => absurd h.2.1 (by decide)
    have hout : pulsedOut s.cfg false (fun b => decide (b = a) && homesNow s a) s.out = s.out :=
      pulsedOut_none (by simp [hstep]) _ _ _
    rw [homingPart, hout, hsnap, if_pos rfl, Bool.or_true]
    cases a
    · rfl
    · rw [homeEnc, hsnap]; rfl
  · have hsnap := snap_false hh (.inr hp)
    have hstep : homesNow s a = true := homesNow_iff.2 ⟨hh, hsnap, hr⟩
    rw [homingPart, homeEnc_of_not_snap hsnap, hsnap, hstep, Bool.or_false, PerAxis.set_get, if_neg (by decide),
      if_pos rfl, pulse_eq_stepRegs]
    simp only [Bool.and_true]
  · refine (homingPart_of_still (snap_false hh (.inr hp)) ?_).symm
    rw [← Bool.not_eq_true, homesNow_iff]
    exact fun h => hr h.2.2

/-- Both parts of a homing tick: what AMP does changes nothing that ANG's part reads. -/
theorem homeAxes_eq (s : State) : homeAxis .ang (homeAxis .amp s) = homingTick s := by
  have hboth : homeAxis .ang (homeAxis .amp s) =
      { homingTick s with
        out := pulsedOut s.cfg false (fun b => decide (b = .ang) && homesNow s .ang)
          (pulsedOut s.cfg false (fun b => decide (b = .amp) && homesNow s .amp) s.out) } := by
    rw [homeAxis_eq .amp, homeAxis_eq .ang]
    rfl
  rw [hboth, pulsedOut_amp_ang]
  rfl

theorem homeStep_eq (s : State) :
    homeStep s = if (homingTick s).sweep.homed = ⟨true, true⟩ then homeDone (homingTick s) else homingTick s := by
  simp only [homeStep, homeAxes_eq, PerAxis.eq_true_iff]

/-- In Homing, and in the first half of Calibrating, the mode step is HomeStep (R192). -/
theorem modeStep_of_homing {s : State} (h : s.mode = .homing ∨ (s.mode = .calibrating ∧ s.sweep.phase = .home)) :
    modeStep s = .next (homeStep s) := by
  rcases h with h | ⟨h, hp⟩
  · rw [modeStep, h]
  · rw [modeStep, h, hp]

/-- Settles O45: the tick is the two parts, and HomeDone does not follow. -/
theorem homingStepsBackward : Obligations.HomingStepsBackward := by
  intro s hmode hnot
  rw [modeStep_of_homing hmode, homeStep_eq, if_neg hnot]

/-- An axis that has homed after the tick did not step in it. -/
theorem homesNow_of_homed {s : State} {a : Axis} (h : (homingTick s).sweep.homed.get a = true) :
    homesNow s a = false := by
  have h' : (s.sweep.homed.get a || snapsNow s a) = true := by cases a <;> exact h
  rw [← Bool.not_eq_true, homesNow_iff]
  rintro ⟨h1, h2, -⟩
  rw [h1, h2] at h'
  exact absurd h' (by decide)

/-- A homing tick after which both axes have homed emits nothing. -/
theorem homingTick_out {s : State} (h : (homingTick s).sweep.homed = ⟨true, true⟩) : (homingTick s).out = s.out :=
  pulsedOut_none (fun a => homesNow_of_homed (by rw [h]; cases a <;> rfl)) _ _ _

/-- Settles O47: HomeDone follows the two parts, which emitted nothing. -/
theorem homingSnapsAndEnds : Obligations.HomingSnapsAndEnds := by
  have ends {s : State} (hdone : (homingTick s).sweep.homed = ⟨true, true⟩) (hmode : s.mode = .homing) :
      modeStep s = .next (enter .idle (homingTick s)) := by
    rw [modeStep_of_homing (.inl hmode), homeStep_eq, if_pos hdone, homeDone]
    exact congrArg _ (if_pos hmode)
  refine ⟨fun s hdone => ⟨fun hmode => ?idle, fun hmode hphase => ?max⟩, fun s hmode h0 haz hgz => ?fresh⟩
  case idle =>
    exact ⟨_, ends hdone hmode, modeEntered_enter _ _, outsideSame_enter _ _, framerSame_enter _ _, enter_corrEn _ _,
      enter_queue _ _, enter_obuf _ _, (enter_out _ _).trans (homingTick_out hdone)⟩
  case max =>
    have hm : (homingTick s).mode ≠ .homing := by show s.mode ≠ .homing; simp [hmode]
    rw [modeStep_of_homing (.inr ⟨hmode, hphase⟩), homeStep_eq, if_pos hdone, homeDone, if_neg hm,
      ← homingTick_out hdone]
    show Host.Outcome.next { homingTick s with
      sweep := ⟨.max, (homingTick s).sweep.homed, ⟨false, false⟩, ⟨0#32, 0#32⟩⟩ } = _
    rw [hdone]
  case fresh =>
    have hamp : snapsNow s .amp = true := snapsNow_iff.2 ⟨by rw [h0]; rfl, haz⟩
    have hang : snapsNow s .ang = true := snapsNow_iff.2 ⟨by rw [h0]; rfl, hgz⟩
    have hhomed : (homingTick s).sweep = { s.sweep with homed := ⟨true, true⟩ } := by
      rw [homingTick, hamp, hang, Bool.or_true, Bool.or_true]
    have hdone : (homingTick s).sweep.homed = ⟨true, true⟩ := by rw [hhomed]
    have haxes : (homingTick s).axes = ⟨{ s.axes.amp with pos := s.cal.minAmp, tgt := s.cal.minAmp },
        { s.axes.ang with pos := 0#32, tgt := 0#32 }⟩ := by
      rw [homingTick, hamp, hang, if_pos rfl, if_pos rfl]
    have henc : (homingTick s).enc = 0#32 := if_pos hang
    refine ⟨_, ends hdone hmode, ?_⟩
    rw [enter_idle]
    exact ⟨haxes, henc, rfl, rfl, homingTick_out hdone, hhomed, rfl, rfl, rfl, rfl, rfl⟩

end Sys2Proof.Machine

/-! PROOFS. The max phase of a calibration, register by register, and the table of the mode transitions. -/

namespace Sys2Proof.Machine

/-! ### One axis's part of a max-phase tick -/

/-- One axis's part of a max-phase tick, register by register. -/
def maxPart (a : Axis) (s : State) : State :=
  { s with
    axes := s.axes.set a (if sweepsNow s a then stepRegs s.now true (s.axes.get a) else s.axes.get a)
    cal := if derivesNow s a then (derive a s).cal else s.cal
    draws := if derivesNow s a then (derive a s).draws else s.draws
    sweep := { s.sweep with
      maxed := s.sweep.maxed.set a (s.sweep.maxed.get a || derivesNow s a)
      moved := s.sweep.moved.set a (s.sweep.moved.get a + if sweepsNow s a then 1#32 else 0#32) }
    out := pulsedOut s.cfg true (fun b => decide (b = a) && sweepsNow s a) s.out }

theorem derivesNow_iff {s : State} {a : Axis} :
    derivesNow s a = true ↔ s.sweep.maxed.get a = false ∧ debPressed (maxSwitch a) s := by
  simp only [derivesNow, Bool.and_eq_true, Bool.not_eq_true', decide_eq_true_eq]
  cases a <;> exact Iff.rfl

theorem sweepsNow_iff {s : State} {a : Axis} :
    sweepsNow s a = true ↔ s.sweep.maxed.get a = false ∧ derivesNow s a = false ∧ ready a s := by
  simp only [sweepsNow, ready, AxisRegs.ready, elapsed, Bool.and_eq_true, Bool.not_eq_true', decide_eq_true_eq,
    and_assoc]

/-- A derivation changes the calibration registers and the count of draws only (R204, R205). -/
theorem derive_shape (a : Axis) (s : State) :
    derive a s = { s with cal := (derive a s).cal, draws := (derive a s).draws } := by
  cases a
  · obtain ⟨m, d, e⟩ := deriveAmp_shape s
    rw [show derive .amp s = deriveAmp s from rfl, e]
  · rfl

/-- The calibration registers after the amplitude derivation (R204). -/
theorem deriveAmp_cal (s : State) :
    (deriveAmp s).cal = { s.cal with
      travel := s.sweep.moved.amp
      spmm := (deriveAmp s).cal.spmm
      minAmp := (deriveAmp s).cal.minAmp
      maxAmp := s.sweep.moved.amp + (deriveAmp s).cal.minAmp } := by
  obtain ⟨m, d, e⟩ := deriveAmp_shape s
  rw [e]

/-- An axis's part of a max-phase tick where it does not step. -/
theorem maxPart_of_not_step {a : Axis} {s : State} (hstep : sweepsNow s a = false) :
    maxPart a s = { s with
      cal := if derivesNow s a then (derive a s).cal else s.cal
      draws := if derivesNow s a then (derive a s).draws else s.draws
      sweep := { s.sweep with maxed := s.sweep.maxed.set a (s.sweep.maxed.get a || derivesNow s a) } } := by
  have hout : pulsedOut s.cfg true (fun b => decide (b = a) && sweepsNow s a) s.out = s.out :=
    pulsedOut_none (by simp [hstep]) _ _ _
  rw [maxPart, hout, hstep, if_neg Bool.false_ne_true, if_neg Bool.false_ne_true, PerAxis.set_get, BitVec.add_zero,
    PerAxis.set_get]

/-- An axis's part of a max-phase tick where it does nothing. -/
theorem maxPart_of_still {a : Axis} {s : State} (hder : derivesNow s a = false) (hstep : sweepsNow s a = false) :
    maxPart a s = s := by
  rw [maxPart_of_not_step hstep, hder, Bool.or_false, PerAxis.set_get, if_neg (by decide), if_neg (by decide)]

/-- CalMaxStep's part for an axis is that (R203). -/
theorem calMaxAxis_eq (a : Axis) (s : State) : calMaxAxis a s = maxPart a s := by
  have derive_false {h : Bool} (hs : s.sweep.maxed.get a = h) (hn : h = true ∨ ¬ debPressed (maxSwitch a) s) :
      derivesNow s a = false := by
    rw [← Bool.not_eq_true, derivesNow_iff]
    rintro ⟨h0, hp⟩
    rcases hn with rfl | hn
    · rw [hs] at h0; exact absurd h0 (by decide)
    · exact hn hp
  rcases calMaxAxis_cases a s with ⟨hh, e⟩ | ⟨hh, hp, e⟩ | ⟨hh, hp, hr, e⟩ | ⟨hh, hp, hr, e⟩ <;> rw [e]
  · refine (maxPart_of_still (derive_false hh (.inl rfl)) ?_).symm
    rw [← Bool.not_eq_true, sweepsNow_iff, hh]
    exact fun h => absurd h.1 (by decide)
  · have hder := derivesNow_iff.2 ⟨hh, hp⟩
    have hstep : sweepsNow s a = false := by
      rw [← Bool.not_eq_true, sweepsNow_iff, hder]
      exact fun h => absurd h.2.1 (by decide)
    rw [maxPart_of_not_step hstep, hder, if_pos rfl, if_pos rfl, Bool.or_true, derive_shape]
    rfl
  · have hder := derive_false hh (.inr hp)
    have hstep : sweepsNow s a = true := sweepsNow_iff.2 ⟨hh, hder, hr⟩
    rw [maxPart, hder, hstep, Bool.or_false, PerAxis.set_get, if_neg Bool.false_ne_true, if_neg Bool.false_ne_true,
      if_pos rfl, if_pos rfl, pulse_eq_stepRegs]
    simp only [Bool.and_true]
    rfl
  · refine (maxPart_of_still (derive_false hh (.inr hp)) ?_).symm
    rw [← Bool.not_eq_true, sweepsNow_iff]
    exact fun h => hr h.2.2

/-- The calibration registers after both parts: AMP's derivation, then ANG's. -/
theorem maxPart_cal (s : State) : (maxPart .ang (maxPart .amp s)).cal = (maxTick s).cal := by
  have hang : derivesNow (maxPart .amp s) .ang = derivesNow s .ang := rfl
  show (if derivesNow (maxPart .amp s) .ang then (derive .ang (maxPart .amp s)).cal else (maxPart .amp s).cal) = _
  rw [hang]
  show (if derivesNow s .ang then
      { (maxPart .amp s).cal with maxAng := s.sweep.moved.ang, maxEnc := s.enc } else (maxPart .amp s).cal) = _
  have hamp : (maxPart .amp s).cal = if derivesNow s .amp then (deriveAmp s).cal else s.cal := rfl
  rw [hamp, deriveAmp_cal, maxTick]
  cases derivesNow s .amp <;> cases derivesNow s .ang <;> rfl

/-- Both parts of a max-phase tick: what AMP does changes nothing that ANG's part reads. -/
theorem calMaxAxes_eq (s : State) : calMaxAxis .ang (calMaxAxis .amp s) = maxTick s := by
  have hdraws : (maxPart .ang (maxPart .amp s)).draws = (maxTick s).draws := by
    show (if derivesNow s .ang then (maxTick s).draws else (maxTick s).draws) = _
    rw [ite_self]
  have hboth : maxPart .ang (maxPart .amp s) =
      { maxTick s with
        cal := (maxPart .ang (maxPart .amp s)).cal
        draws := (maxPart .ang (maxPart .amp s)).draws
        out := pulsedOut s.cfg true (fun b => decide (b = .ang) && sweepsNow s .ang)
          (pulsedOut s.cfg true (fun b => decide (b = .amp) && sweepsNow s .amp) s.out) } := rfl
  rw [calMaxAxis_eq .amp, calMaxAxis_eq .ang, hboth, maxPart_cal, hdraws, pulsedOut_amp_ang]
  rfl

theorem calMaxStep_eq (s : State) :
    calMaxStep s = if (maxTick s).sweep.maxed = ⟨true, true⟩ then calDone (maxTick s) else maxTick s := by
  simp only [calMaxStep, calMaxAxes_eq, PerAxis.eq_true_iff]

/-- In the second half of Calibrating the mode step is CalMaxStep (R192). -/
theorem modeStep_of_max {s : State} (h : s.mode = .calibrating) (hp : s.sweep.phase = .max) :
    modeStep s = .next (calMaxStep s) := by
  rw [modeStep, h, hp]

/-- Settles O46: the tick is the two parts, and CalDone does not follow. -/
theorem maxSweepCountsPulses : Obligations.MaxSweepCountsPulses := by
  intro s hmode hphase hnot
  rw [modeStep_of_max hmode hphase, calMaxStep_eq, if_neg hnot]

/-- After a max-phase tick that confirms both axes, neither stepped in it. -/
theorem sweepsNow_of_maxed {s : State} (h : (maxTick s).sweep.maxed = ⟨true, true⟩) (a : Axis) :
    sweepsNow s a = false := by
  have h' : (s.sweep.maxed.get a || derivesNow s a) = true := by
    obtain ⟨hamp, hang⟩ := PerAxis.eq_true_iff.1 h
    cases a
    · exact hamp
    · exact hang
  rw [← Bool.not_eq_true, sweepsNow_iff]
  rintro ⟨h1, h2, -⟩
  rw [h1, h2] at h'
  exact absurd h' (by decide)

/-- Such a tick emits nothing, and moves no axis. -/
theorem maxTick_out {s : State} (h : (maxTick s).sweep.maxed = ⟨true, true⟩) : (maxTick s).out = s.out :=
  pulsedOut_none (sweepsNow_of_maxed h) _ _ _

theorem maxTick_axes {s : State} (h : (maxTick s).sweep.maxed = ⟨true, true⟩) : (maxTick s).axes = s.axes := by
  rw [maxTick, sweepsNow_of_maxed h .amp, sweepsNow_of_maxed h .ang]
  rfl

/-- CalDone after a max-phase tick, with every register it changes (R206). -/
theorem calDone_eq (s : State) :
    calDone s = { s with
      mode := .homing
      draw := { s.draw with loaded := false, corr := false, settle := false }
      cal := { s.cal with calibrated := true, calibrating := false }
      motor := { s.motor with en := true }
      sweep := { s.sweep with homed := ⟨false, false⟩ } } := rfl

/-- Settles O51: CalDone follows the two parts, which emitted nothing. -/
theorem calibrationCompletes : Obligations.CalibrationCompletes := by
  have ends {s : State} (hmode : s.mode = .calibrating) (hphase : s.sweep.phase = .max)
      (hdone : (maxTick s).sweep.maxed = ⟨true, true⟩) : modeStep s = .next (calDone (maxTick s)) := by
    rw [modeStep_of_max hmode hphase, calMaxStep_eq, if_pos hdone]
  refine ⟨fun s hmode hphase hdone => ?after, fun s hmode hphase h0 hax hgx => ?fresh⟩
  case after =>
    refine ⟨_, ends hmode hphase hdone, ?_⟩
    rw [calDone_eq]
    exact ⟨rfl, rfl, rfl, rfl, rfl, rfl, maxTick_axes hdone, maxTick_out hdone, rfl, rfl, ⟨rfl, fun _ => rfl⟩, rfl, rfl,
      rfl, rfl, rfl, rfl, rfl⟩
  case fresh =>
    have hamp : derivesNow s .amp = true := derivesNow_iff.2 ⟨by rw [h0]; rfl, hax⟩
    have hang : derivesNow s .ang = true := derivesNow_iff.2 ⟨by rw [h0]; rfl, hgx⟩
    have hdone : (maxTick s).sweep.maxed = ⟨true, true⟩ := by
      rw [maxTick, hamp, hang, Bool.or_true, Bool.or_true]
    have hcal : (maxTick s).cal = { (deriveAmp s).cal with maxAng := s.sweep.moved.ang, maxEnc := s.enc } := by
      rw [deriveAmp_cal, maxTick, hamp, hang]
      rfl
    have hmax : (deriveAmp s).cal.maxAmp = s.sweep.moved.amp + (deriveAmp s).cal.minAmp := by rw [deriveAmp_cal]
    have htravel : (deriveAmp s).cal.travel = s.sweep.moved.amp := by rw [deriveAmp_cal]
    refine ⟨_, ends hmode hphase hdone, ?_⟩
    rw [calDone_eq, hcal]
    exact ⟨rfl, rfl, rfl, htravel, rfl, rfl, hmax, rfl, rfl, rfl, hdone, rfl, maxTick_axes hdone, maxTick_out hdone,
      rfl, rfl, rfl⟩

end Sys2Proof.Machine

/-! PROOFS. What one dispatch can do to the registers, what a Drawing step leaves alone, and the mode transitions. -/

namespace Sys2Proof.Machine

/-! ### One dispatch -/

/-- The updates of the registers that a command makes before its reply. -/
inductive CommandUpdate (i : Instr) (s : State) : State → Prop where
  | nothing : CommandUpdate i s s
  | enters (code : Word) (m : Mode) (hi : i = .setMode code) (hm : Mode.ofCode code = some m) :
      CommandUpdate i s (enter m s)
  | calibrates (travel spmm minAmp maxAmp maxAng maxEnc : Word) :
      CommandUpdate i s { s with cal := ⟨travel, spmm, minAmp, maxAmp, maxAng, maxEnc, true, false⟩ }
  | setsCorrEn (v : Bool) : CommandUpdate i s { s with corrEn := v }
  | enqueues (w : Waypoint) (hfull : ¬ qFull s) : CommandUpdate i s (enqueued w s)

/-- A command that goes on is one update and one reply. -/
theorem exec_eq_next {i : Instr} {s t : State} (h : exec i s = .next t) :
    ∃ u bytes tag cause, CommandUpdate i s u ∧ reply bytes tag cause u = .next t := by
  cases i with
  | getStatus => exact ⟨s, _, _, _, .nothing, h⟩
  | setMode code =>
    cases hm : Mode.ofCode code with
    | none =>
      rw [exec, execSetMode, hm] at h
      exact ⟨s, _, _, _, .nothing, h⟩
    | some m =>
      rw [exec, execSetMode, hm] at h
      exact ⟨_, _, _, _, .enters code m rfl hm, h⟩
  | calibrate => exact ⟨_, _, _, _, .calibrates _ _ _ _ _ _, h⟩
  | setAngleCorr => exact ⟨_, _, _, _, .setsCorrEn _, h⟩
  | addPos amp ang pen vamp vang chk =>
    rcases exec_addPos_cases amp ang pen vamp vang chk s with ⟨-, e⟩ | ⟨-, -, e⟩ | ⟨-, hfull, e⟩ <;> rw [e] at h
    · exact ⟨s, _, _, _, .nothing, h⟩
    · exact ⟨s, _, _, _, .nothing, h⟩
    · obtain ⟨u, hu, ht⟩ := andThen_eq_next.1 h
      rcases tryEnqueue_cases hu with ⟨hf, -⟩ | ⟨-, -, rfl⟩
      · exact absurd hf hfull
      · exact ⟨_, _, _, _, .enqueues _ hfull, ht⟩

/-- A frame that goes on is one reply, after an update where it holds a command. -/
theorem runFrame_eq_next {s t : State} (h : runFrame s = .next t) :
    ∃ u bytes tag cause, reply bytes tag cause u = .next t ∧
      (u = s ∨ ∃ i, decode s.cfg s.framer.payload = .ok i ∧ CommandUpdate i s u) := by
  rcases runFrame_cases s with ⟨-, e⟩ | ⟨-, i, hi, e⟩ | ⟨-, tag, -, e⟩ | ⟨-, tag, -, e⟩ <;> rw [e] at h
  · exact ⟨s, _, _, _, h, .inl rfl⟩
  · obtain ⟨u, bytes, tag, cause, hu, ht⟩ := exec_eq_next h
    exact ⟨u, bytes, tag, cause, ht, .inr ⟨i, hi, hu⟩⟩
  · exact ⟨s, _, _, _, h, .inl rfl⟩
  · exact ⟨s, _, _, _, h, .inl rfl⟩

/-! ### What a Drawing step leaves alone -/

/-- What no operation of Drawing but the entry into Idle changes: MODE, the sweep registers, the calibration, the motor
registers and the draws; and the queue but for HEAD. -/
structure SameSequencer (s t : State) : Prop where
  mode : t.mode = s.mode
  sweep : t.sweep = s.sweep
  cal : t.cal = s.cal
  motor : t.motor = s.motor
  draws : t.draws = s.draws
  slots : t.queue.slots = s.queue.slots

theorem SameSequencer.refl (s : State) : SameSequencer s s := ⟨rfl, rfl, rfl, rfl, rfl, rfl⟩

theorem SameSequencer.trans {s t u : State} (h : SameSequencer s t) (k : SameSequencer t u) : SameSequencer s u :=
  ⟨k.mode.trans h.mode, k.sweep.trans h.sweep, k.cal.trans h.cal, k.motor.trans h.motor, k.draws.trans h.draws,
    k.slots.trans h.slots⟩

theorem stepTowardTarget_sameSequencer (a : Axis) (s : State) : SameSequencer s (stepTowardTarget a s) := by
  rw [stepTowardTarget_shape]
  exact ⟨rfl, rfl, rfl, rfl, rfl, rfl⟩

theorem singleStepAtSpeed_sameSequencer (a : Axis) (d : Bool) (s : State) :
    SameSequencer s (singleStepAtSpeed a d s) := by
  rcases singleStepAtSpeed_cases a d s with ⟨-, e⟩ | ⟨-, e⟩ <;> rw [e]
  · exact ⟨rfl, rfl, rfl, rfl, rfl, rfl⟩
  · exact .refl s

theorem completeIf_sameSequencer (x : State × Verdict) : SameSequencer x.1 (completeIf x) := by
  obtain ⟨s, _ | _⟩ := x
  · rw [completeIf_complete, complete_eq]
    split_ifs <;> exact ⟨rfl, rfl, rfl, rfl, rfl, rfl⟩
  · exact .refl s

theorem arrivalCheck_sameSequencer (s : State) : SameSequencer s (arrivalCheck s).1 := by
  rcases arrivalCheck_cases s with ⟨e, -⟩ | ⟨-, -, e⟩ <;> rw [e] <;> exact ⟨rfl, rfl, rfl, rfl, rfl, rfl⟩

theorem correctionStep_sameSequencer (s : State) : SameSequencer s (correctionStep s).1 := by
  rcases correctionStep_cases s with ⟨-, e⟩ | ⟨-, -, e⟩ | ⟨-, -, e⟩ <;> rw [e]
  · exact ⟨rfl, rfl, rfl, rfl, rfl, rfl⟩
  · exact ⟨rfl, rfl, rfl, rfl, rfl, rfl⟩
  · exact singleStepAtSpeed_sameSequencer _ _ s

theorem loadWaypoint_sameSequencer (w : Waypoint) (s : State) : SameSequencer s (loadWaypoint w s) := by
  unfold loadWaypoint penUpdate
  split_ifs <;> exact ⟨rfl, rfl, rfl, rfl, rfl, rfl⟩

theorem stepAxes_sameSequencer (s : State) : SameSequencer s (stepAxes s) := by
  have h := (stepTowardTarget_sameSequencer .amp s).trans (stepTowardTarget_sameSequencer .ang _)
  rcases stepAxes_cases s with ⟨t, rfl, -, -, e⟩ | ⟨t, rfl, -, e⟩ <;> rw [e]
  · exact (h.trans (arrivalCheck_sameSequencer _)).trans (completeIf_sameSequencer _)
  · exact h

/-- A Drawing step enters Idle on an empty queue with nothing loaded, or leaves the sequencer's other registers. -/
theorem drawStep_sequencer {s t : State} (h : drawStep s = .next t) :
    (s.draw.loaded = false ∧ qEmpty s ∧ t = enter .idle { s with draw := { s.draw with settle := false } }) ∨
      SameSequencer s t := by
  rcases drawStep_cases s with ⟨-, e⟩ | ⟨-, e⟩ <;> rw [e] at h
  · cases h
    exact .inr (.refl s)
  · have hclear : SameSequencer s { s with draw := { s.draw with settle := false } } := ⟨rfl, rfl, rfl, rfl, rfl, rfl⟩
    rcases drawRun_cases { s with draw := { s.draw with settle := false } } with
      ⟨hl, he, r⟩ | ⟨-, -, w, -, r⟩ | ⟨-, -, -, r⟩ | ⟨-, -, r⟩ | ⟨-, -, r⟩ <;> rw [r] at h <;> cases h
    · exact .inl ⟨hl, he, rfl⟩
    · exact .inr (hclear.trans (loadWaypoint_sameSequencer w _))
    · exact .inr (hclear.trans ((correctionStep_sameSequencer _).trans (completeIf_sameSequencer _)))
    · exact .inr (hclear.trans (stepAxes_sameSequencer _))

/-! ### The mode transitions -/

/-- A homing step ends in Idle, in the max phase, or not yet. -/
theorem homeStep_transitions (s : State) :
    ((homingTick s).sweep.homed = ⟨true, true⟩ ∧ s.mode = .homing ∧ homeStep s = enter .idle (homingTick s)) ∨
    ((homingTick s).sweep.homed = ⟨true, true⟩ ∧ s.mode ≠ .homing ∧
      homeStep s = { homingTick s with sweep := ⟨.max, ⟨true, true⟩, ⟨false, false⟩, ⟨0#32, 0#32⟩⟩ }) ∨
    ((homingTick s).sweep.homed ≠ ⟨true, true⟩ ∧ homeStep s = homingTick s) := by
  rw [homeStep_eq]
  split_ifs with hdone
  · by_cases hmode : s.mode = .homing
    · exact .inl ⟨hdone, hmode, if_pos hmode⟩
    · refine .inr (.inl ⟨hdone, hmode, ?_⟩)
      rw [← hdone]
      exact if_neg hmode
  · exact .inr (.inr ⟨hdone, rfl⟩)

/-- A dispatch changes MODE only by an entry. -/
theorem dispatchFrame_mode {s t : State} (h : dispatchFrame s = .next t) (hmode : t.mode ≠ s.mode) :
    ∃ code, decode s.cfg s.framer.payload = .ok (.setMode code) ∧ Mode.ofCode code = some t.mode := by
  obtain ⟨v, hv, rfl⟩ := dispatchFrame_eq_next.1 h
  obtain ⟨u, bytes, tag, cause, hreply, hu⟩ := runFrame_eq_next hv
  obtain ⟨-, rfl⟩ := reply_eq_next.1 hreply
  rcases hu with rfl | ⟨i, hi, hu⟩
  · exact absurd rfl hmode
  · cases hu with
    | enters code m hset hm => exact ⟨code, hset ▸ hi, hm.trans (congrArg some (enter_mode m s).symm)⟩
    | nothing | calibrates | setsCorrEn | enqueues => exact absurd rfl hmode

/-- Settles O44: each mode's step by its own cases, and the dispatch by the command's update. -/
theorem modeTransitionsAreTheTable : Obligations.ModeTransitionsAreTheTable := by
  refine ⟨fun s t h => ?step, fun s t h hmode => dispatchFrame_mode h hmode⟩
  rcases modeStep_cases s with ⟨-, e⟩ | ⟨hm, e⟩ | ⟨hm, hp, e⟩ | ⟨hm, e⟩ <;> rw [e] at h
  · cases h
    exact ⟨.inl rfl, .inl rfl⟩
  · cases h
    rcases homeStep_transitions s with ⟨hdone, hhom, r⟩ | ⟨hdone, hnot, r⟩ | ⟨-, r⟩ <;> rw [r]
    · exact ⟨.inr (.inl ⟨hhom, rfl, hdone⟩), .inl rfl⟩
    · obtain ⟨hcal, hphase⟩ := hm.resolve_left hnot
      exact ⟨.inl rfl, .inr ⟨hcal, hphase, rfl, rfl⟩⟩
    · exact ⟨.inl rfl, .inl rfl⟩
  · cases h
    rw [calMaxStep_eq]
    split_ifs with hdone
    · exact ⟨.inr (.inr (.inl ⟨hm, hp, rfl, hdone, rfl⟩)), .inl rfl⟩
    · exact ⟨.inl rfl, .inl rfl⟩
  · rcases drawStep_sequencer h with ⟨hl, he, rfl⟩ | k
    · exact ⟨.inr (.inr (.inr ⟨hm, rfl, hl, he⟩)), .inl rfl⟩
    · exact ⟨.inl k.mode, .inl (congrArg SweepRegs.phase k.sweep)⟩

end Sys2Proof.Machine

/-! PROOFS. The invariant through a tick: within one MOTOR_EN_OUT may lag behind MOTOR_EN, and every phase keeps the
rest; every phase goes on; and what the tick emits. -/

namespace Sys2Proof.Machine

/-- The invariant within a tick: that of `Inv`, but for MOTOR_EN_OUT, which phase E drives (R214). -/
structure MidInv (s : State) : Prop where
  cfg : s.cfg.Valid
  axes : AxesInRange s
  switches : SwitchesInRange s
  queue : QueueInRange s
  framer : s.framer.InRange s.cfg
  fifo : FifoInRange s
  sequencer : SequencerOk s
  lines : s.out.dirOut = ⟨s.axes.amp.dir, s.axes.ang.dir⟩ ∧ s.out.stepOut = ⟨false, false⟩

theorem Inv.mid {s : State} (h : Inv s) : MidInv s :=
  ⟨h.cfg, h.axes, h.switches, h.queue, h.framer, h.fifo, h.sequencer, h.ports.1, h.ports.2.1⟩

/-- Settles O10: both axes are in range as `AxisRegs.reset_inRange` says, and nothing else of the invariant asks for
more than a zero. -/
theorem resetSatisfiesInv : Obligations.ResetSatisfiesInv := by
  intro c rx ticks hvalid
  have ⟨⟨hq, _⟩, ⟨hlo, hhi⟩, _⟩ := hvalid
  have haxis := AxisRegs.reset_inRange hlo hhi
  refine ⟨hvalid, ⟨haxis, haxis⟩, ⟨Nat.zero_le _, Nat.zero_le _, Nat.zero_le _, Nat.zero_le _⟩, ?queue, ?framer,
    Nat.zero_le _, ?sequencer, rfl, rfl, rfl⟩
  case queue => exact ⟨List.length_replicate, Nat.zero_lt_of_lt hq, Nat.zero_lt_of_lt hq⟩
  case framer => simp [FramerRegs.InRange, State.resetWith]
  case sequencer => simp [SequencerOk, State.resetWith]

/-! ### Phase A -/

theorem MidInv.beginTick {s : State} (h : MidInv s) (t : TickIn) : MidInv (beginTick t s) :=
  ⟨h.cfg, h.axes, h.switches, h.queue, h.framer, h.fifo, h.sequencer, h.lines⟩

theorem MidInv.feedByte {s : State} (h : MidInv s) (b : Byte) : MidInv (feedByte b s) :=
  ⟨h.cfg, h.axes, h.switches, h.queue, FramerRegs.feed_inRange h.framer b, h.fifo, h.sequencer, h.lines⟩

/-- A mode entry keeps the invariant: it enables the motors outside Idle and clears what belongs to a waypoint. -/
theorem MidInv.enter {s : State} (h : MidInv s) (m : Mode) : MidInv (enter m s) := by
  have hseq : SequencerOk (Sys2Proof.Machine.enter m s) := by
    refine ⟨fun hm => ?_, fun hc => ?_, ?_, ?_, ?_⟩
    · rw [enter_mode] at hm
      rw [enter_motor_en, if_neg hm]
    · rw [enter_calibrating_flag] at hc
      rw [enter_mode]
      exact of_decide_eq_true hc
    all_goals simp
  cases m <;> exact ⟨h.cfg, h.axes, h.switches, h.queue, h.framer, h.fifo, hseq, h.lines⟩

/-- An enqueue keeps the invariant: the queue it leaves is not empty. -/
theorem MidInv.enqueued {s : State} (h : MidInv s) (hfull : ¬ qFull s) (w : Waypoint) : MidInv (enqueued w s) := by
  obtain ⟨hmot, hcal, hload, hcorr, hsettle⟩ := h.sequencer
  exact ⟨h.cfg, h.axes, h.switches, enqueued_inRange h.queue w, h.framer, h.fifo,
    ⟨hmot, hcal, fun hl => ⟨(hload hl).1, fun he => hfull he.symm⟩, hcorr, hsettle⟩, h.lines⟩

theorem MidInv.commandUpdate {i : Instr} {s u : State} (h : MidInv s) (hu : CommandUpdate i s u) : MidInv u := by
  cases hu with
  | nothing => exact h
  | enters code m => exact h.enter m
  | calibrates =>
    obtain ⟨hmot, -, hrest⟩ := h.sequencer
    exact ⟨h.cfg, h.axes, h.switches, h.queue, h.framer, h.fifo, ⟨hmot, fun hc => absurd hc (by simp), hrest⟩, h.lines⟩
  | setsCorrEn => exact ⟨h.cfg, h.axes, h.switches, h.queue, h.framer, h.fifo, h.sequencer, h.lines⟩
  | enqueues w hfull => exact h.enqueued hfull w

theorem MidInv.reply {bytes : List Byte} {tag : Option Word} {cause : Cause} {s t : State} (h : MidInv s)
    (hr : reply bytes tag cause s = .next t) : MidInv t := by
  obtain ⟨hroom, rfl⟩ := reply_eq_next.1 hr
  exact ⟨h.cfg, h.axes, h.switches, h.queue, h.framer, by simpa [FifoInRange] using hroom, h.sequencer, h.lines⟩

theorem MidInv.dispatchFrame {s t : State} (h : MidInv s) (hd : dispatchFrame s = .next t) : MidInv t := by
  obtain ⟨v, hv, rfl⟩ := dispatchFrame_eq_next.1 hd
  obtain ⟨u, bytes, tag, cause, hreply, hu⟩ := runFrame_eq_next hv
  have hmid : MidInv u := by
    rcases hu with rfl | ⟨i, -, hu⟩
    · exact h
    · exact h.commandUpdate hu
  have k := hmid.reply hreply
  exact ⟨k.cfg, k.axes, k.switches, k.queue, FramerRegs.cleared_inRange k.framer, k.fifo, k.sequencer, k.lines⟩

/-- A property kept by each byte and by each dispatch is kept by the byte loop. -/
theorem inputLoop_induct {P : State → Prop} (hbyte : ∀ b s, P s → P (feedByte b s))
    (hdisp : ∀ s t, P s → dispatchFrame s = .next t → P t) (bs : List Byte) :
    ∀ {s t : State}, P s → inputLoop bs s = .next t → P t := by
  induction bs with
  | nil =>
    intro s t hs h
    cases h
    exact hs
  | cons b bs ih =>
    intro s t hs h
    rcases inputLoop_cons b bs s with ⟨-, e⟩ | ⟨-, -, e⟩ | ⟨-, -, e⟩ <;> rw [e] at h
    · exact ih (hbyte b s hs) h
    · obtain ⟨u, hu, ht⟩ := andThen_eq_next.1 h
      exact ih (hdisp _ _ (hbyte b s hs) hu) ht
    · cases h
      exact hbyte b s hs

/-- The same of the input phase. -/
theorem inputPhase_induct {P : State → Prop} (hbyte : ∀ b s, P s → P (feedByte b s))
    (hdisp : ∀ s t, P s → dispatchFrame s = .next t → P t) {bs : List Byte} {s t : State} (hs : P s)
    (h : inputPhase bs s = .next t) : P t := by
  unfold inputPhase at h
  split_ifs at h with hp hr
  · obtain ⟨u, hu, ht⟩ := andThen_eq_next.1 h
    exact inputLoop_induct hbyte hdisp bs (hdisp s u hs hu) ht
  · cases h
    exact hs
  · exact inputLoop_induct hbyte hdisp bs hs h

theorem MidInv.inputPhase {bs : List Byte} {s t : State} (h : MidInv s) (hi : inputPhase bs s = .next t) : MidInv t :=
  inputPhase_induct (fun b _ k => k.feedByte b) (fun _ _ k hd => k.dispatchFrame hd) h hi

/-! ### Phases B and C -/

theorem MidInv.outputDrain {s : State} (h : MidInv s) (ready : Bool) : MidInv (outputDrain ready s) := by
  have hlen : (Sys2Proof.Machine.outputDrain ready s).obuf.length ≤ s.cfg.outBufLen := by
    have hf := h.fifo
    rw [outputDrain_obuf]
    split_ifs
    · rw [List.length_tail]
      exact (Nat.sub_le _ _).trans hf
    · exact hf
  rw [outputDrain_shape]
  exact ⟨h.cfg, h.axes, h.switches, h.queue, h.framer, hlen, h.sequencer, h.lines⟩

theorem MidInv.sample {s : State} (h : MidInv s) (t : TickIn) : MidInv (sample t s) :=
  ⟨h.cfg, h.axes,
    ⟨SwitchRegs.poll_le _ _ _, SwitchRegs.poll_le _ _ _, SwitchRegs.poll_le _ _ _, SwitchRegs.poll_le _ _ _⟩,
    h.queue, h.framer, h.fifo, h.sequencer, h.lines⟩

/-! ### Phase D -/

theorem MidInv.pulse {s : State} (h : MidInv s) (a : Axis) (d : Bool) : MidInv (pulse a d s) := by
  obtain ⟨hdir, hstep⟩ := h.lines
  rw [pulse_eq]
  cases a
  · exact ⟨h.cfg, h.axes, h.switches, h.queue, h.framer, h.fifo, h.sequencer, by rw [hdir]; rfl, by rw [hstep]; rfl⟩
  · exact ⟨h.cfg, h.axes, h.switches, h.queue, h.framer, h.fifo, h.sequencer, by rw [hdir]; rfl, by rw [hstep]; rfl⟩

theorem MidInv.stepTowardTarget {s : State} (h : MidInv s) (a : Axis) : MidInv (stepTowardTarget a s) := by
  rcases stepTowardTarget_cases a s with ⟨-, e⟩ | ⟨-, -, e⟩ <;> rw [e]
  · exact h
  · exact h.pulse a _

theorem MidInv.singleStepAtSpeed {s : State} (h : MidInv s) (a : Axis) (d : Bool) :
    MidInv (singleStepAtSpeed a d s) := by
  rcases singleStepAtSpeed_cases a d s with ⟨-, e⟩ | ⟨-, e⟩ <;> rw [e]
  · exact h.pulse a d
  · exact h

theorem MidInv.homeAxis {s : State} (h : MidInv s) (a : Axis) : MidInv (homeAxis a s) := by
  rcases homeAxis_cases a s with ⟨-, e⟩ | ⟨-, -, e⟩ | ⟨-, -, -, e⟩ | ⟨-, -, -, e⟩ <;> rw [e]
  · exact h
  · cases a <;> exact ⟨h.cfg, h.axes, h.switches, h.queue, h.framer, h.fifo, h.sequencer, h.lines⟩
  · exact h.pulse a _
  · exact h

theorem MidInv.homeStep {s : State} (h : MidInv s) : MidInv (homeStep s) := by
  have k : MidInv (homingTick s) := homeAxes_eq s ▸ (h.homeAxis .amp).homeAxis .ang
  rcases homeStep_transitions s with ⟨-, -, e⟩ | ⟨-, -, e⟩ | ⟨-, e⟩ <;> rw [e]
  · exact k.enter .idle
  · exact ⟨k.cfg, k.axes, k.switches, k.queue, k.framer, k.fifo, k.sequencer, k.lines⟩
  · exact k

theorem MidInv.calMaxAxis {s : State} (h : MidInv s) (a : Axis) : MidInv (calMaxAxis a s) := by
  rcases calMaxAxis_cases a s with ⟨-, e⟩ | ⟨-, -, e⟩ | ⟨-, -, -, e⟩ | ⟨-, -, -, e⟩ <;> rw [e]
  · exact h
  · have hflag : (derive a s).cal.calibrating = s.cal.calibrating := by
      cases a
      · show (deriveAmp s).cal.calibrating = _
        rw [deriveAmp_cal]
      · rfl
    have hseq := h.sequencer
    rw [SequencerOk, ← hflag] at hseq
    rw [derive_shape]
    exact ⟨h.cfg, h.axes, h.switches, h.queue, h.framer, h.fifo, hseq, h.lines⟩
  · have k := h.pulse a true
    exact ⟨k.cfg, k.axes, k.switches, k.queue, k.framer, k.fifo, k.sequencer, k.lines⟩
  · exact h

theorem MidInv.calMaxStep {s : State} (h : MidInv s) : MidInv (calMaxStep s) := by
  have k : MidInv (maxTick s) := calMaxAxes_eq s ▸ (h.calMaxAxis .amp).calMaxAxis .ang
  rw [calMaxStep_eq]
  split_ifs
  · obtain ⟨hmot, -, hrest⟩ := k.sequencer
    have kdone : MidInv ((maxTick s).onCal fun c => { c with calibrated := true, calibrating := false }) :=
      ⟨k.cfg, k.axes, k.switches, k.queue, k.framer, k.fifo, ⟨hmot, fun hc => absurd hc (by simp), hrest⟩, k.lines⟩
    exact kdone.enter .homing
  · exact k

/-- A completion keeps the invariant where no correction and no hold is left. -/
theorem MidInv.complete {s : State} (h : MidInv s) (hcorr : s.draw.corr = false) (hsettle : s.draw.settle = false) :
    MidInv (complete s) := by
  obtain ⟨hmot, hcal, -, -, -⟩ := h.sequencer
  rw [complete_eq]
  split_ifs
  · exact ⟨h.cfg, h.axes, h.switches, h.queue, h.framer, h.fifo,
      ⟨hmot, hcal, by simp, by simp [hcorr], by simp [hsettle]⟩, h.lines⟩
  · exact ⟨h.cfg, h.axes, h.switches, dequeued_inRange h.queue, h.framer, h.fifo,
      ⟨hmot, hcal, by simp, by simp [hcorr], by simp [hsettle]⟩, h.lines⟩

theorem MidInv.loadWaypoint {s : State} (h : MidInv s) (hmode : s.mode = .drawing) (hne : ¬ qEmpty s)
    (hsettle : s.draw.settle = false) (w : Waypoint) : MidInv (loadWaypoint w s) := by
  obtain ⟨hmot, hcal, -, -, -⟩ := h.sequencer
  have ⟨_, ⟨hlo, hhi⟩, _⟩ := h.cfg
  have haxes : AxesInRange { s with
      axes := ⟨{ s.axes.amp.setSpeed s.cfg w.vamp with tgt := w.amp },
        { s.axes.ang.setSpeed s.cfg w.vang with tgt := w.ang }⟩ } :=
    ⟨AxisRegs.setSpeed_inRange hlo hhi w.vamp s.axes.amp, AxisRegs.setSpeed_inRange hlo hhi w.vang s.axes.ang⟩
  rw [loadWaypoint_eq]
  rcases penUpdate_cases w.pen { s with
      axes := ⟨{ s.axes.amp.setSpeed s.cfg w.vamp with tgt := w.amp },
        { s.axes.ang.setSpeed s.cfg w.vang with tgt := w.ang }⟩ } with ⟨-, e⟩ | ⟨-, e⟩ <;> rw [e]
  · exact ⟨h.cfg, haxes, h.switches, h.queue, h.framer, h.fifo,
      ⟨hmot, hcal, fun _ => ⟨hmode, hne⟩, by simp, fun _ => ⟨rfl, rfl⟩⟩, h.lines⟩
  · exact ⟨h.cfg, haxes, h.switches, h.queue, h.framer, h.fifo,
      ⟨hmot, hcal, fun _ => ⟨hmode, hne⟩, by simp, by simp [hsettle]⟩, h.lines⟩

theorem MidInv.correction {s : State} (h : MidInv s) (hcorr : s.draw.corr = true) :
    MidInv (completeIf (correctionStep s)) := by
  obtain ⟨hmot, hcal, hload, hc, hsettle⟩ := h.sequencer
  obtain ⟨hl, hs⟩ := hc hcorr
  rcases correctionStep_cases s with ⟨-, e⟩ | ⟨-, -, e⟩ | ⟨-, -, e⟩ <;> rw [e]
  · have k : MidInv { s with draw := { s.draw with corr := false } } :=
      ⟨h.cfg, h.axes, h.switches, h.queue, h.framer, h.fifo, ⟨hmot, hcal, hload, by simp, hsettle⟩, h.lines⟩
    exact k.complete rfl hs
  · have k : MidInv (converge s) :=
      ⟨h.cfg, h.axes, h.switches, h.queue, h.framer, h.fifo, ⟨hmot, hcal, hload, by simp [converge], hsettle⟩, h.lines⟩
    exact k.complete rfl hs
  · exact h.singleStepAtSpeed .ang _

theorem MidInv.stepAxes {s : State} (h : MidInv s) (hload : s.draw.loaded = true) (hcorr : s.draw.corr = false)
    (hsettle : s.draw.settle = false) : MidInv (stepAxes s) := by
  have k := (h.stepTowardTarget .amp).stepTowardTarget .ang
  have hdraw : (Sys2Proof.Machine.stepTowardTarget .ang (Sys2Proof.Machine.stepTowardTarget .amp s)).draw = s.draw := by
    rw [stepTowardTarget_shape .ang, stepTowardTarget_shape .amp]
  rcases stepAxes_cases s with ⟨t, rfl, -, -, e⟩ | ⟨t, rfl, -, e⟩ <;> rw [e]
  · rcases arrivalCheck_cases (Sys2Proof.Machine.stepTowardTarget .ang (Sys2Proof.Machine.stepTowardTarget .amp s)) with
      ⟨ea, -⟩ | ⟨-, -, ea⟩ <;> rw [ea]
    · exact k.complete (by rw [hdraw]; exact hcorr) (by rw [hdraw]; exact hsettle)
    · obtain ⟨hmot, hcal, hl, -, hs⟩ := k.sequencer
      rw [hdraw] at hl hs
      exact ⟨k.cfg, k.axes, k.switches, k.queue, k.framer, k.fifo,
        ⟨hmot, hcal, by rw [hdraw]; exact hl, by rw [hdraw]; exact fun _ => ⟨hload, hsettle⟩, by rw [hdraw]; exact hs⟩,
        k.lines⟩
  · exact k

theorem MidInv.drawRun {s t : State} (h : MidInv s) (hmode : s.mode = .drawing) (hsettle : s.draw.settle = false)
    (hr : drawRun s = .next t) : MidInv t := by
  rcases drawRun_cases s with ⟨-, -, e⟩ | ⟨-, hne, w, -, e⟩ | ⟨-, -, -, e⟩ | ⟨-, hc, e⟩ | ⟨hl, hc, e⟩ <;>
    rw [e] at hr <;> cases hr
  · exact h.enter .idle
  · exact h.loadWaypoint hmode hne hsettle w
  · exact h.correction hc
  · exact h.stepAxes hl hc hsettle

/-- Clearing SETTLE keeps the invariant. -/
theorem MidInv.clearSettle {s : State} (h : MidInv s) : MidInv { s with draw := { s.draw with settle := false } } := by
  obtain ⟨hmot, hcal, hload, hcorr, -⟩ := h.sequencer
  exact ⟨h.cfg, h.axes, h.switches, h.queue, h.framer, h.fifo,
    ⟨hmot, hcal, hload, fun hc => ⟨(hcorr hc).1, rfl⟩, by simp⟩, h.lines⟩

/-- A mode step that goes on keeps the invariant. -/
theorem MidInv.modeStep {s t : State} (h : MidInv s) (hm : modeStep s = .next t) : MidInv t := by
  rcases modeStep_cases s with ⟨-, e⟩ | ⟨-, e⟩ | ⟨-, -, e⟩ | ⟨hmode, e⟩ <;> rw [e] at hm
  · cases hm; exact h
  · cases hm; exact h.homeStep
  · cases hm; exact h.calMaxStep
  · rcases drawStep_cases s with ⟨-, r⟩ | ⟨-, r⟩ <;> rw [r] at hm
    · cases hm; exact h
    · exact h.clearSettle.drawRun hmode rfl hm

/-! ### Phase E, and the step -/

/-- The motor-enable phase makes the invariant whole: it disables the motors in Idle only, and drives MOTOR_EN_OUT. -/
theorem MidInv.motorEnableUpdate {s : State} (h : MidInv s) : Inv (motorEnableUpdate s) := by
  rcases motorEnableUpdate_cases s with ⟨⟨hidle, -, -⟩, e⟩ | ⟨-, e⟩ <;> rw [e]
  · exact ⟨h.cfg, h.axes, h.switches, h.queue, h.framer, h.fifo, ⟨fun hm => absurd hidle hm, h.sequencer.2⟩,
      h.lines.1, h.lines.2, rfl⟩
  · exact ⟨h.cfg, h.axes, h.switches, h.queue, h.framer, h.fifo, h.sequencer, h.lines.1, h.lines.2, rfl⟩

theorem MidInv.afterInput {k : TickIn} {s t : State} (h : MidInv s) (ha : afterInput k s = .next t) : Inv t := by
  obtain ⟨u, hu, rfl⟩ := afterInput_eq_next.1 ha
  exact (((h.outputDrain k.outReady).sample k).modeStep hu).motorEnableUpdate

/-- Settles O11: each phase keeps the invariant within the tick, the last one makes it whole, and the transport and the
schedule are no part of it. -/
theorem stepKeepsInv : Obligations.StepKeepsInv := by
  intro s t h hstep
  rcases step_cases s with ⟨-, e⟩ | ⟨k, rest, -, e⟩ <;> rw [e] at hstep
  · cases hstep
    exact h
  · obtain ⟨u, w, hu, hw, rfl⟩ := transportTick_eq_next.1 hstep
    have h0 : MidInv (s.setTicks rest) :=
      ⟨h.cfg, h.axes, h.switches, h.queue, h.framer, h.fifo, h.sequencer, h.mid.lines⟩
    have hinv := (MidInv.inputPhase (h0.beginTick k) hu).afterInput hw
    exact ⟨hinv.cfg, hinv.axes, hinv.switches, hinv.queue, hinv.framer, hinv.fifo, hinv.sequencer, hinv.ports⟩

/-! ### Every phase goes on -/

theorem exec_goes_on {s : State} (hq : QueueInRange s) (hroom : replyRoom s) (i : Instr) :
    ∃ t, exec i s = .next t := by
  cases i with
  | getStatus => exact reply_goes_out _ _ hroom (statusReply_length s).le
  | setMode code =>
    cases hm : Mode.ofCode code with
    | none =>
      rw [exec, execSetMode, hm]
      exact reply_goes_out _ _ hroom failBytes_length_le
    | some m =>
      obtain ⟨t, ht, -⟩ := reply_after (some s.cfg.tagSetMode) .none hroom okBytes_length_le (enter_obuf m s)
        (enter_out m s) (enter_cfg m s)
      rw [exec, execSetMode, hm]
      exact ⟨t, ht⟩
  | calibrate a b c d e f =>
    exact reply_goes_out (s := s.onCal fun _ => ⟨a, b, c, d, e, f, true, false⟩) _ _ hroom okBytes_length_le
  | setAngleCorr v =>
    exact reply_goes_out (s := s.setCorrEn (decide (v ≠ 0#32))) _ _ hroom okBytes_length_le
  | addPos amp ang pen vamp vang chk =>
    rcases exec_addPos_cases amp ang pen vamp vang chk s with ⟨-, e⟩ | ⟨-, -, e⟩ | ⟨-, hfull, e⟩ <;> rw [e]
    · exact reply_goes_out _ _ hroom failBytes_length_le
    · exact reply_goes_out _ _ hroom failBytes_length_le
    · rw [tryEnqueue_of_slot hfull (by rw [hq.1]; exact hq.2.2), andThen_next]
      exact reply_goes_out (s := enqueued ⟨amp, ang, pen, vamp, vang⟩ s) _ _ hroom okBytes_length_le

/-- With room for the longest reply, a dispatch goes on (R235, R285). -/
theorem dispatchFrame_goes_on {s : State} (hq : QueueInRange s) (hroom : replyRoom s) :
    ∃ t, dispatchFrame s = .next t := by
  have hrun : ∃ u, runFrame s = .next u := by
    rcases runFrame_cases s with ⟨-, e⟩ | ⟨-, i, -, e⟩ | ⟨-, tag, -, e⟩ | ⟨-, tag, -, e⟩ <;> rw [e]
    · exact reply_goes_out _ _ hroom failBytes_length_le
    · exact exec_goes_on hq hroom i
    · exact reply_goes_out _ _ hroom failBytes_length_le
    · exact reply_goes_out _ _ hroom okBytes_length_le
  obtain ⟨u, hu⟩ := hrun
  exact ⟨clearFrame u, dispatchFrame_eq_next.2 ⟨u, hu, rfl⟩⟩

theorem inputLoop_goes_on (bs : List Byte) : ∀ {s : State}, MidInv s → ∃ t, inputLoop bs s = .next t := by
  induction bs with
  | nil => exact fun {s} _ => ⟨s, rfl⟩
  | cons b bs ih =>
    intro s h
    have hb := h.feedByte b
    rcases inputLoop_cons b bs s with ⟨-, e⟩ | ⟨-, hroom, e⟩ | ⟨-, -, e⟩ <;> rw [e]
    · exact ih hb
    · obtain ⟨u, hu⟩ := dispatchFrame_goes_on (s := feedByte b s) hb.queue hroom
      rw [hu]
      exact ih (hb.dispatchFrame hu)
    · exact ⟨_, rfl⟩

theorem inputPhase_goes_on {s : State} (h : MidInv s) (bs : List Byte) : ∃ t, inputPhase bs s = .next t := by
  unfold inputPhase
  split_ifs with hp hr
  · obtain ⟨u, hu⟩ := dispatchFrame_goes_on h.queue hr
    rw [hu]
    exact inputLoop_goes_on bs (h.dispatchFrame hu)
  · exact ⟨s, rfl⟩
  · exact inputLoop_goes_on bs h

/-- A mode step goes on: the slot at HEAD exists. -/
theorem modeStep_goes_on {s : State} (hq : QueueInRange s) : ∃ t, modeStep s = .next t := by
  have hrun (u : State) (hu : QueueInRange u) : ∃ t, drawRun u = .next t := by
    rcases drawRun_cases u with ⟨-, -, e⟩ | ⟨-, -, w, -, e⟩ | ⟨-, -, hlen, -⟩ | ⟨-, -, e⟩ | ⟨-, -, e⟩
    · exact ⟨_, e⟩
    · exact ⟨_, e⟩
    · obtain ⟨hn, hhead, -⟩ := hu
      omega
    · exact ⟨_, e⟩
    · exact ⟨_, e⟩
  rcases modeStep_cases s with ⟨-, e⟩ | ⟨-, e⟩ | ⟨-, -, e⟩ | ⟨-, e⟩ <;> rw [e]
  · exact ⟨_, rfl⟩
  · exact ⟨_, rfl⟩
  · exact ⟨_, rfl⟩
  · rcases drawStep_cases s with ⟨-, r⟩ | ⟨-, r⟩ <;> rw [r]
    · exact ⟨_, rfl⟩
    · exact hrun _ hq

theorem afterInput_goes_on {s : State} (h : MidInv s) (k : TickIn) : ∃ t, afterInput k s = .next t := by
  obtain ⟨u, hu⟩ := modeStep_goes_on ((h.outputDrain k.outReady).sample k).queue
  exact ⟨motorEnableUpdate u, afterInput_eq_next.2 ⟨u, hu, rfl⟩⟩

/-- Settles O12: the input phase goes on, keeps the invariant within the tick, and so the later phases go on. -/
theorem stepNeverStops : Obligations.StepNeverStops := by
  intro s h
  rcases step_cases s with ⟨-, e⟩ | ⟨k, rest, -, e⟩ <;> rw [e]
  · exact ⟨s, rfl⟩
  · have h0 : MidInv (s.setTicks rest) :=
      ⟨h.cfg, h.axes, h.switches, h.queue, h.framer, h.fifo, h.sequencer, h.mid.lines⟩
    obtain ⟨u, hu⟩ := inputPhase_goes_on (h0.beginTick k) ((s.setTicks rest).rx ++ k.inBytes)
    obtain ⟨w, hw⟩ := afterInput_goes_on (MidInv.inputPhase (h0.beginTick k) hu) k
    exact ⟨_, transportTick_eq_next.2 ⟨u, w, hu, hw, rfl⟩⟩

end Sys2Proof.Machine

/-! PROOFS. What a step emits and what it never writes: the pulses of a tick, the configuration, and the live slots. -/

namespace Sys2Proof.Machine

/-- Settles O14: no phase of the tick changes the configuration. -/
theorem configurationIsFixed : Obligations.ConfigurationIsFixed := by
  intro s t hstep
  rcases step_cases s with ⟨-, e⟩ | ⟨k, rest, -, e⟩ <;> rw [e] at hstep
  · cases hstep
    rfl
  · obtain ⟨u, w, hu, hw, rfl⟩ := transportTick_eq_next.1 hstep
    exact (afterInput_keeps hw).cfg.trans (inputPhase_takes hu).1.cfg

/-! ### The pulses of a tick -/

/-- At most one pulse for each axis, AMP first, each made by the line sequence of R135. -/
def PulsesInOrder (c : Config) (ps : List Pulse) : Prop :=
  (ps.map Pulse.axis).Sublist [.amp, .ang] ∧ ∀ p ∈ ps, p.line = pulseLine c p.dir

theorem pulsesInOrder_nil (c : Config) : PulsesInOrder c [] := ⟨by simp, by simp⟩

/-- The pulses of both axes in one record are in order. -/
theorem pulsesInOrder_pulsedOut {c : Config} {o : TickOut} (h0 : o.pulses = []) (d : Bool) (steps : Axis → Bool) :
    PulsesInOrder c (pulsedOut c d steps o).pulses := by
  have hps : (pulsedOut c d steps o).pulses =
      ([Axis.amp, Axis.ang].filter steps).map fun a => ⟨a, d, pulseLine c d⟩ := by
    rw [pulsedOut, h0]
    rfl
  rw [hps]
  refine ⟨?_, ?_⟩
  · rw [List.map_map, show Pulse.axis ∘ (fun a => ⟨a, d, pulseLine c d⟩) = id from rfl, List.map_id]
    exact List.filter_sublist
  · rintro p hp
    obtain ⟨a, -, rfl⟩ := List.mem_map.1 hp
    rfl

/-- The pulses one axis may add: none, or one made by its line sequence. -/
def PulsesBy (a : Axis) (s t : State) : Prop :=
  t.out.pulses = s.out.pulses ∨ ∃ d, t.out.pulses = s.out.pulses ++ [⟨a, d, pulseLine s.cfg d⟩]

theorem stepTowardTarget_pulsesBy (a : Axis) (s : State) : PulsesBy a s (stepTowardTarget a s) := by
  rcases stepTowardTarget_cases a s with ⟨-, e⟩ | ⟨-, -, e⟩ <;> rw [e]
  · exact .inl rfl
  · exact .inr ⟨_, rfl⟩

theorem singleStepAtSpeed_pulsesBy (a : Axis) (d : Bool) (s : State) : PulsesBy a s (singleStepAtSpeed a d s) := by
  rcases singleStepAtSpeed_cases a d s with ⟨-, e⟩ | ⟨-, e⟩ <;> rw [e]
  · exact .inr ⟨_, rfl⟩
  · exact .inl rfl

theorem pulsesInOrder_singleton (c : Config) (a : Axis) (d : Bool) : PulsesInOrder c [⟨a, d, pulseLine c d⟩] :=
  ⟨by cases a <;> simp, by simp⟩

/-- AMP's pulse and then ANG's are in order. -/
theorem pulsesInOrder_amp_ang {s t u : State} (h0 : s.out.pulses = []) (hcfg : t.cfg = s.cfg) (hamp : PulsesBy .amp s t)
    (hang : PulsesBy .ang t u) : PulsesInOrder s.cfg u.out.pulses := by
  rw [PulsesBy, h0] at hamp
  rw [PulsesBy, hcfg] at hang
  rcases hamp with hamp | ⟨d, hamp⟩ <;> rcases hang with hang | ⟨e, hang⟩ <;> rw [hang, hamp]
  · exact pulsesInOrder_nil _
  · exact pulsesInOrder_singleton _ _ _
  · exact pulsesInOrder_singleton _ _ _
  · exact ⟨by simp, by simp⟩

theorem completeIf_out (x : State × Verdict) : (completeIf x).out = x.1.out := by
  obtain ⟨s, _ | _⟩ := x
  · rw [completeIf_complete, complete_eq]
    split_ifs <;> rfl
  · rfl

theorem arrivalCheck_out (s : State) : (arrivalCheck s).1.out = s.out := by
  rcases arrivalCheck_cases s with ⟨e, -⟩ | ⟨-, -, e⟩ <;> rw [e]

/-- Both stepping calls of Drawing, whatever the arrival then does. -/
theorem stepAxes_pulses {s : State} (h0 : s.out.pulses = []) : PulsesInOrder s.cfg (stepAxes s).out.pulses := by
  have k := pulsesInOrder_amp_ang h0 (stepTowardTarget_sameInput .amp s).cfg (stepTowardTarget_pulsesBy .amp s)
    (stepTowardTarget_pulsesBy .ang _)
  rcases stepAxes_cases s with ⟨t, rfl, -, -, e⟩ | ⟨t, rfl, -, e⟩ <;> rw [e]
  · rwa [completeIf_out, arrivalCheck_out]
  · exact k

/-- A correction adds at most one pulse, of ANG. -/
theorem correction_pulses {s : State} (h0 : s.out.pulses = []) :
    PulsesInOrder s.cfg (completeIf (correctionStep s)).out.pulses := by
  rw [completeIf_out]
  rcases correctionStep_cases s with ⟨-, e⟩ | ⟨-, -, e⟩ | ⟨-, -, e⟩ <;> rw [e]
  · exact h0 ▸ pulsesInOrder_nil _
  · exact h0 ▸ pulsesInOrder_nil _
  · exact pulsesInOrder_amp_ang h0 rfl (.inl rfl) (singleStepAtSpeed_pulsesBy .ang _ s)

theorem loadWaypoint_pulses (w : Waypoint) (s : State) : (loadWaypoint w s).out.pulses = s.out.pulses := by
  rw [loadWaypoint_eq]
  rcases penUpdate_cases w.pen { s with
      axes := ⟨{ s.axes.amp.setSpeed s.cfg w.vamp with tgt := w.amp },
        { s.axes.ang.setSpeed s.cfg w.vang with tgt := w.ang }⟩ } with ⟨-, e⟩ | ⟨-, e⟩ <;> rw [e] <;> rfl

/-- A Drawing step adds its pulses in order, and stays in Drawing where it adds one. -/
theorem drawStep_pulses {s t : State} (h0 : s.out.pulses = []) (hmode : s.mode = .drawing)
    (h : drawStep s = .next t) : PulsesInOrder s.cfg t.out.pulses ∧ (t.out.pulses ≠ [] → t.mode ≠ .idle) := by
  have still (u : State) (hu : u.out.pulses = []) :
      PulsesInOrder s.cfg u.out.pulses ∧ (u.out.pulses ≠ [] → u.mode ≠ .idle) :=
    ⟨hu ▸ pulsesInOrder_nil _, fun hne => absurd hu hne⟩
  rcases drawStep_sequencer h with ⟨-, -, rfl⟩ | k
  · exact still _ (by rw [enter_out]; exact h0)
  · refine ⟨?_, fun _ => by simp [k.mode, hmode]⟩
    rcases drawStep_cases s with ⟨-, e⟩ | ⟨-, e⟩ <;> rw [e] at h
    · cases h
      exact (still s h0).1
    · rcases drawRun_cases { s with draw := { s.draw with settle := false } } with
        ⟨-, -, r⟩ | ⟨-, -, w, -, r⟩ | ⟨-, -, -, r⟩ | ⟨-, -, r⟩ | ⟨-, -, r⟩ <;> rw [r] at h <;> cases h
      · exact (still _ (by rw [enter_out]; exact h0)).1
      · exact (still _ (by rw [loadWaypoint_pulses]; exact h0)).1
      · exact correction_pulses (s := { s with draw := { s.draw with settle := false } }) h0
      · exact stepAxes_pulses (s := { s with draw := { s.draw with settle := false } }) h0

/-- A mode step adds its pulses in order, and leaves the machine out of Idle where it adds one (R142, R198, R216). -/
theorem modeStep_pulses {s t : State} (h0 : s.out.pulses = []) (h : modeStep s = .next t) :
    PulsesInOrder s.cfg t.out.pulses ∧ (t.out.pulses ≠ [] → t.mode ≠ .idle) := by
  have still (u : State) (hu : u.out.pulses = []) :
      PulsesInOrder s.cfg u.out.pulses ∧ (u.out.pulses ≠ [] → u.mode ≠ .idle) :=
    ⟨hu ▸ pulsesInOrder_nil _, fun hne => absurd hu hne⟩
  rcases modeStep_cases s with ⟨-, e⟩ | ⟨hm, e⟩ | ⟨hm, -, e⟩ | ⟨hm, e⟩ <;> rw [e] at h
  · cases h
    exact still _ h0
  · cases h
    rcases homeStep_transitions s with ⟨hdone, -, r⟩ | ⟨hdone, -, r⟩ | ⟨-, r⟩ <;> rw [r]
    · exact still _ (by rw [enter_out, homingTick_out hdone]; exact h0)
    · exact still _ (by rw [← h0, ← homingTick_out hdone])
    · refine ⟨pulsesInOrder_pulsedOut h0 false (homesNow s), fun _ => ?_⟩
      show s.mode ≠ .idle
      rcases hm with hm | ⟨hm, -⟩ <;> simp [hm]
  · cases h
    rw [calMaxStep_eq]
    split_ifs with hdone
    · exact still _ (by rw [← h0, ← maxTick_out hdone]; rfl)
    · refine ⟨pulsesInOrder_pulsedOut h0 true (sweepsNow s), fun _ => ?_⟩
      show s.mode ≠ .idle
      simp [hm]
  · exact drawStep_pulses h0 hm h

/-- Settles O13: the pulses come from the mode step alone; where there is one the mode is not Idle, so the motors are
enabled and the dwell does not disable them. -/
theorem tickOutputIsSafe : Obligations.TickOutputIsSafe := by
  intro k s t h ht
  obtain ⟨u, hu, ha⟩ := tick_eq_next.1 ht
  obtain ⟨v, hv, rfl⟩ := afterInput_eq_next.1 ha
  have hmid : MidInv (sample k (outputDrain k.outReady u)) :=
    ((MidInv.inputPhase (h.mid.beginTick k) hu).outputDrain k.outReady).sample k
  have h0 : (sample k (outputDrain k.outReady u)).out.pulses = [] := by
    rw [outputDrain_shape]
    exact (inputPhase_takes hu).1.pulses
  have hcfg : (sample k (outputDrain k.outReady u)).cfg = v.cfg := (modeStep_sameInput hv).cfg.symm
  obtain ⟨⟨hsub, hline⟩, hidle⟩ := modeStep_pulses h0 hv
  rw [hcfg] at hline
  rcases motorEnableUpdate_cases v with ⟨⟨hmode, -, -⟩, e⟩ | ⟨-, e⟩ <;> rw [e]
  · exact ⟨hsub, hline, fun hne => absurd hmode (hidle hne)⟩
  · have hen : v.out.pulses ≠ [] → v.motor.en = true := fun hne => (hmid.modeStep hv).sequencer.1 (hidle hne)
    exact ⟨hsub, hline, fun hne => ⟨hen hne, hen hne⟩⟩

/-! ### The live slots -/

/-- From s to t the queue has grown at its tail at most: the slots live in s are live in t and as they were. -/
structure QueueGrown (s t : State) : Prop where
  cfg : t.cfg = s.cfg
  inRange : QueueInRange t
  head : t.queue.head = s.queue.head
  count : qCount s ≤ qCount t
  slots : ∀ k, k < qCount s →
    t.queue.slots[(s.queue.head + k) % s.cfg.queueN]? = s.queue.slots[(s.queue.head + k) % s.cfg.queueN]?

theorem QueueGrown.refl {s : State} (h : QueueInRange s) : QueueGrown s s := ⟨rfl, h, rfl, le_rfl, fun _ _ => rfl⟩

theorem QueueGrown.trans {s t u : State} (h : QueueGrown s t) (k : QueueGrown t u) : QueueGrown s u := by
  refine ⟨k.cfg.trans h.cfg, k.inRange, k.head.trans h.head, h.count.trans k.count, fun j hj => ?_⟩
  have hslot := k.slots j (hj.trans_le h.count)
  rw [h.head, h.cfg] at hslot
  exact hslot.trans (h.slots j hj)

/-- A state with the same queue and configuration. -/
theorem QueueGrown.of_eq {s t : State} (h : QueueInRange s) (hq : t.queue = s.queue) (hc : t.cfg = s.cfg) :
    QueueGrown s t := by
  have hrange : QueueInRange t := by rw [QueueInRange, hq, hc]; exact h
  have hcount : qCount t = qCount s := by rw [qCount, qCount, hq, hc]
  exact ⟨hc, hrange, by rw [hq], hcount.ge, fun k _ => by rw [hq]⟩

/-- A command writes the queue only by an enqueue, which writes no live slot (R173, R177). -/
theorem CommandUpdate.queueGrown {i : Instr} {s u : State} (hu : CommandUpdate i s u) (h : QueueInRange s) :
    QueueGrown s u := by
  cases hu with
  | nothing | calibrates | setsCorrEn => exact .of_eq h rfl rfl
  | enters code m => exact .of_eq h (enter_queue m s) (enter_cfg m s)
  | enqueues w hfull =>
    exact ⟨rfl, enqueued_inRange h w, rfl, by rw [qCount_enqueued h hfull]; exact Nat.le_succ _,
      fun k hk => enqueued_slots h w hk⟩

theorem dispatchFrame_queueGrown {s t : State} (h : QueueInRange s) (hd : dispatchFrame s = .next t) :
    QueueGrown s t := by
  obtain ⟨v, hv, rfl⟩ := dispatchFrame_eq_next.1 hd
  obtain ⟨u, bytes, tag, cause, hreply, hu⟩ := runFrame_eq_next hv
  obtain ⟨-, rfl⟩ := reply_eq_next.1 hreply
  have k : QueueGrown s u := by
    rcases hu with rfl | ⟨i, -, hu⟩
    · exact .refl h
    · exact hu.queueGrown h
  exact k.trans (.of_eq k.inRange rfl rfl)

theorem inputPhase_queueGrown {bs : List Byte} {s t : State} (h : QueueInRange s) (hi : inputPhase bs s = .next t) :
    QueueGrown s t :=
  inputPhase_induct (P := QueueGrown s) (fun _ _ k => k.trans (.of_eq k.inRange rfl rfl))
    (fun _ _ k hd => k.trans (dispatchFrame_queueGrown k.inRange hd)) (.refl h) hi

/-- A mode step writes no slot at all: it moves HEAD at most (R175, R176). -/
theorem modeStep_slots {s t : State} (h : modeStep s = .next t) : t.queue.slots = s.queue.slots := by
  rcases modeStep_cases s with ⟨-, e⟩ | ⟨-, e⟩ | ⟨-, -, e⟩ | ⟨-, e⟩ <;> rw [e] at h
  · cases h
    rfl
  · cases h
    rcases homeStep_transitions s with ⟨-, -, r⟩ | ⟨-, -, r⟩ | ⟨-, r⟩ <;> rw [r]
    · rw [enter_queue]; rfl
    · rfl
    · rfl
  · cases h
    rw [calMaxStep_eq]
    split_ifs
    · rw [calDone, enter_queue]; rfl
    · rfl
  · rcases drawStep_sequencer h with ⟨-, -, rfl⟩ | k
    · rw [enter_queue]
    · exact k.slots

theorem afterInput_slots {k : TickIn} {s t : State} (h : afterInput k s = .next t) :
    t.queue.slots = s.queue.slots := by
  obtain ⟨u, hu, rfl⟩ := afterInput_eq_next.1 h
  have hslots := modeStep_slots hu
  rw [outputDrain_shape] at hslots
  rw [motorEnableUpdate_shape]
  exact hslots

/-- Settles O40: the input phase only appends to the live slots, and the later phases write none. -/
theorem liveSlotsAreImmutable : Obligations.LiveSlotsAreImmutable := by
  intro s t h hstep k hk
  rcases step_cases s with ⟨-, e⟩ | ⟨tin, rest, -, e⟩ <;> rw [e] at hstep
  · cases hstep
    rfl
  · obtain ⟨u, w, hu, hw, rfl⟩ := transportTick_eq_next.1 hstep
    have hgrown := inputPhase_queueGrown (s := beginTick tin (s.setTicks rest)) h.queue hu
    rw [State.setRx_queue, afterInput_slots hw]
    exact hgrown.slots k hk

end Sys2Proof.Machine

/-! PROOFS. Runs of many ticks: what keeps its hold or its sweep for any number of them, and what is over after a bounded
number. -/

namespace Sys2Proof.Machine

theorem runSteps_succ (n : Nat) (s : State) : runSteps (n + 1) s = andThen (step s) (runSteps n) := rfl

/-- A property that every step keeps, going on, is kept by every number of steps. -/
theorem runSteps_induct {P : State → Prop} (hstep : ∀ s, P s → ∃ t, step s = .next t ∧ P t) (n : Nat) :
    ∀ {s : State}, P s → ∃ t, runSteps n s = .next t ∧ P t := by
  induction n with
  | zero => exact fun {s} hs => ⟨s, rfl, hs⟩
  | succ n ih =>
    intro s hs
    obtain ⟨u, hu, hpu⟩ := hstep s hs
    obtain ⟨t, ht, hpt⟩ := ih hpu
    exact ⟨t, by rw [runSteps_succ, hu]; exact ht, hpt⟩

/-! ### Ticks on a silent link -/

/-- The state with which a tick of a silent link enters the mode step. -/
def quietTick (t : TickIn) (rest : List TickIn) (s : State) : State :=
  sample t (outputDrain t.outReady (beginTick t (s.setTicks rest)))

/-- The state in which such a tick ends, from the one the mode step leaves. -/
def quietEnd (s : State) : State := (motorEnableUpdate s).setRx []

theorem quietTick_shape (t : TickIn) (rest : List TickIn) (s : State) :
    quietTick t rest s = { s with
      now := t.now
      out := (quietTick t rest s).out
      obuf := (quietTick t rest s).obuf
      ticks := rest
      enc := s.enc + t.encDelta
      sw :=
        { az := s.sw.az.poll s.cfg t.swRaw.az
          ax := s.sw.ax.poll s.cfg t.swRaw.ax
          gz := s.sw.gz.poll s.cfg t.swRaw.gz
          gx := s.sw.gx.poll s.cfg t.swRaw.gx } } := by
  rw [quietTick, outputDrain_shape, sample_eq, beginTick_eq]
  rfl

theorem quietEnd_shape (s : State) :
    quietEnd s = { s with motor := (quietEnd s).motor, out := (quietEnd s).out, rx := [] } := by
  rw [quietEnd, motorEnableUpdate_shape]
  rfl

section
variable (t : TickIn) (rest : List TickIn) (s : State)

@[simp] theorem quietTick_cfg : (quietTick t rest s).cfg = s.cfg := by rw [quietTick_shape]
@[simp] theorem quietTick_axes : (quietTick t rest s).axes = s.axes := by rw [quietTick_shape]
@[simp] theorem quietTick_cal : (quietTick t rest s).cal = s.cal := by rw [quietTick_shape]
@[simp] theorem quietTick_corrEn : (quietTick t rest s).corrEn = s.corrEn := by rw [quietTick_shape]
@[simp] theorem quietTick_mode : (quietTick t rest s).mode = s.mode := by rw [quietTick_shape]
@[simp] theorem quietTick_sweep : (quietTick t rest s).sweep = s.sweep := by rw [quietTick_shape]
@[simp] theorem quietTick_draw : (quietTick t rest s).draw = s.draw := by rw [quietTick_shape]
@[simp] theorem quietTick_queue : (quietTick t rest s).queue = s.queue := by rw [quietTick_shape]
@[simp] theorem quietTick_framer : (quietTick t rest s).framer = s.framer := by rw [quietTick_shape]
@[simp] theorem quietTick_enc : (quietTick t rest s).enc = s.enc + t.encDelta := by rw [quietTick_shape]
@[simp] theorem quietTick_ticks : (quietTick t rest s).ticks = rest := by rw [quietTick_shape]
@[simp] theorem quietTick_az : (quietTick t rest s).sw.az = s.sw.az.poll s.cfg t.swRaw.az := by
  rw [quietTick_shape]
@[simp] theorem quietTick_gz : (quietTick t rest s).sw.gz = s.sw.gz.poll s.cfg t.swRaw.gz := by
  rw [quietTick_shape]

@[simp] theorem quietEnd_cfg : (quietEnd s).cfg = s.cfg := by rw [quietEnd_shape]
@[simp] theorem quietEnd_mode : (quietEnd s).mode = s.mode := by rw [quietEnd_shape]
@[simp] theorem quietEnd_sweep : (quietEnd s).sweep = s.sweep := by rw [quietEnd_shape]
@[simp] theorem quietEnd_framer : (quietEnd s).framer = s.framer := by rw [quietEnd_shape]
@[simp] theorem quietEnd_sw : (quietEnd s).sw = s.sw := by rw [quietEnd_shape]
@[simp] theorem quietEnd_ticks : (quietEnd s).ticks = s.ticks := by rw [quietEnd_shape]
@[simp] theorem quietEnd_rx : (quietEnd s).rx = [] := rfl

end

/-- With no byte to take and no frame pending, a tick is its mode step between those two. -/
theorem step_of_quiet {s u : State} {t : TickIn} {rest : List TickIn} (hq : QuietLink s)
    (hf : s.framer.st ≠ .pending) (hticks : s.ticks = t :: rest) (hm : modeStep (quietTick t rest s) = .next u) :
    step s = .next (quietEnd u) := by
  obtain ⟨hrx, hbytes⟩ := hq
  have hnone : s.rx ++ t.inBytes = [] := by rw [hrx, hbytes t (by rw [hticks]; exact List.mem_cons_self)]; rfl
  have hphase : inputPhase [] (beginTick t (s.setTicks rest)) = .next (beginTick t (s.setTicks rest)) := if_neg hf
  have hafter : afterInput t (beginTick t (s.setTicks rest)) = .next (motorEnableUpdate u) :=
    afterInput_eq_next.2 ⟨u, hm, rfl⟩
  rw [step_of_ticks hticks, transportTick_eq, State.setTicks_rx, hnone, hphase, andThen_next, hafter, andThen_next,
    List.drop_nil]
  rfl

/-- The host is silent, no frame is pending, and every scheduled tick is one of a kind. -/
structure Silent (kind : TickIn → Prop) (s : State) : Prop where
  link : QuietLink s
  framer : s.framer.st ≠ .pending
  ticks : ∀ t ∈ s.ticks, kind t

/-- A silent tick leaves the link silent, and is over. -/
theorem Silent.next {kind : TickIn → Prop} {s u : State} {t : TickIn} {rest : List TickIn} (h : Silent kind s)
    (hticks : s.ticks = t :: rest) (hm : modeStep (quietTick t rest s) = .next u) :
    Silent kind (quietEnd u) ∧ (quietEnd u).ticks = rest := by
  have k := modeStep_sameInput hm
  have hrest : (quietEnd u).ticks = rest := by rw [quietEnd_ticks, k.ticks, quietTick_ticks]
  have hmem : ∀ t' ∈ rest, t' ∈ s.ticks := fun t' h' => by rw [hticks]; exact List.mem_cons_of_mem t h'
  refine ⟨⟨⟨quietEnd_rx u, fun t' h' => ?_⟩, ?_, fun t' h' => ?_⟩, hrest⟩
  · rw [hrest] at h'
    exact h.link.2 t' (hmem t' h')
  · rw [quietEnd_framer, k.framer, quietTick_framer]
    exact h.framer
  · rw [hrest] at h'
    exact h.ticks t' (hmem t' h')

/-- A property that the mode step of a silent tick keeps is kept by the step; with no tick left, nothing happens. -/
theorem step_of_silent {kind : TickIn → Prop} {P : State → Prop}
    (hkeep : ∀ s t rest, P s → kind t → ∃ u, modeStep (quietTick t rest s) = .next u ∧ P (quietEnd u)) (s : State)
    (h : Silent kind s ∧ P s) : ∃ t, step s = .next t ∧ Silent kind t ∧ P t := by
  obtain ⟨hs, hp⟩ := h
  cases hticks : s.ticks with
  | nil => exact ⟨s, noTickNoChange s hticks, hs, hp⟩
  | cons t rest =>
    obtain ⟨u, hu, hpu⟩ := hkeep s t rest hp (hs.ticks t (by rw [hticks]; exact List.mem_cons_self))
    exact ⟨quietEnd u, step_of_quiet hs.link hs.framer hticks hu, (hs.next hticks hu).1, hpu⟩

/-! ### Homing without an end -/

/-- Homing AMP, under a debounce that asks for a pressed sample. -/
structure HomingAmp (s : State) : Prop where
  debounce : 1 ≤ s.cfg.debounceK
  mode : s.mode = .homing
  homed : s.sweep.homed.amp = false

/-- A sample of AZ that is not pressed leaves AMP homing. -/
theorem HomingAmp.next {s : State} {t : TickIn} (h : HomingAmp s) (ht : t.swRaw.az ≠ s.cfg.swActiveLevel)
    (rest : List TickIn) : ∃ u, modeStep (quietTick t rest s) = .next u ∧ HomingAmp (quietEnd u) := by
  have hsnap : snapsNow (quietTick t rest s) .amp = false := by
    rw [← Bool.not_eq_true, snapsNow_iff]
    rintro ⟨-, hp⟩
    have hk : (s.sw.az.poll s.cfg t.swRaw.az).cnt = s.cfg.debounceK := by simpa [debPressed, zeroSwitch] using hp
    rw [SwitchRegs.poll_cnt, if_neg ht] at hk
    exact absurd h.debounce (by omega)
  have hhomed : (homingTick (quietTick t rest s)).sweep.homed.amp = false := by
    show ((quietTick t rest s).sweep.homed.amp || snapsNow (quietTick t rest s) .amp) = false
    rw [hsnap, Bool.or_false, quietTick_sweep]
    exact h.homed
  have hnot : (homingTick (quietTick t rest s)).sweep.homed ≠ ⟨true, true⟩ := by
    intro he
    rw [he] at hhomed
    exact absurd hhomed (by decide)
  have hmode : (quietTick t rest s).mode = .homing := by rw [quietTick_mode]; exact h.mode
  refine ⟨homingTick (quietTick t rest s), homingStepsBackward _ (.inl hmode) hnot, ?_, ?_, ?_⟩
  · rw [quietEnd_cfg]
    show 1 ≤ (quietTick t rest s).cfg.debounceK
    rw [quietTick_cfg]
    exact h.debounce
  · rw [quietEnd_mode]
    exact hmode
  · rw [quietEnd_sweep]
    exact hhomed

/-- Settles O49: every silent tick with AZ not pressed leaves AMP homing, and so does every number of them. -/
theorem homingMayNeverEnd : Obligations.HomingMayNeverEnd := by
  intro s hk hmode hhomed hframer hq hticks n
  have hkeep : ∀ u t rest, (HomingAmp u ∧ u.cfg.swActiveLevel = s.cfg.swActiveLevel) →
      t.swRaw.az ≠ s.cfg.swActiveLevel →
      ∃ v, modeStep (quietTick t rest u) = .next v ∧
        (HomingAmp (quietEnd v) ∧ (quietEnd v).cfg.swActiveLevel = s.cfg.swActiveLevel) := by
    rintro u t rest ⟨hu, hc⟩ ht
    obtain ⟨v, hv, hp⟩ := hu.next (hc ▸ ht) rest
    exact ⟨v, hv, hp, by rw [quietEnd_cfg, (modeStep_sameInput hv).cfg, quietTick_cfg, hc]⟩
  obtain ⟨t, ht, -, hp, -⟩ := runSteps_induct (step_of_silent hkeep) n
    (s := s) ⟨⟨hq, hframer, hticks⟩, ⟨hk, hmode, hhomed⟩, rfl⟩
  exact ⟨t, ht, hp.mode, hp.homed⟩

/-! ### A correction without an end -/

/-- Correcting the waypoint at the head of `q` with the encoder at `e`, off the target count. -/
structure Correcting (q : QueueRegs) (e : Word) (s : State) : Prop where
  mode : s.mode = .drawing
  loaded : s.draw.loaded = true
  corr : s.draw.corr = true
  settle : s.draw.settle = false
  active : corrActive s
  off : e ≠ anglePosToEncoder s.axes.ang.tgt s
  queue : s.queue = q
  enc : s.enc = e

/-- A paced single step of ANG leaves everything a correction goes by. -/
theorem Correcting.singleStep {q : QueueRegs} {e : Word} {s : State} (h : Correcting q e s) (d : Bool) :
    Correcting q e (singleStepAtSpeed .ang d s) := by
  rcases singleStepAtSpeed_cases .ang d s with ⟨-, r⟩ | ⟨-, r⟩ <;> rw [r]
  · exact ⟨h.mode, h.loaded, h.corr, h.settle, h.active, h.off, h.queue, h.enc⟩
  · exact h

/-- With the encoder still, a correction off its target goes on (R187). -/
theorem Correcting.next {q : QueueRegs} {e : Word} {s : State} {t : TickIn} (h : Correcting q e s)
    (ht : t.encDelta = 0#32) (rest : List TickIn) :
    ∃ u, modeStep (quietTick t rest s) = .next u ∧ Correcting q e (quietEnd u) := by
  have hv : Correcting q e (quietTick t rest s) := by
    constructor
    case active => simpa [corrActive, mapperValid] using h.active
    case off => simpa [anglePosToEncoder] using h.off
    case enc => simpa [ht] using h.enc
    all_goals simp [h.mode, h.loaded, h.corr, h.settle, h.queue]
  have hoff : (quietTick t rest s).enc ≠
      anglePosToEncoder (quietTick t rest s).axes.ang.tgt (quietTick t rest s) := by rw [hv.enc]; exact hv.off
  have hstep := (modeStep_eq_drawRun hv.mode hv.settle).trans (drawRun_of_corr hv.loaded hv.corr)
  rw [correctionStep_of_off hv.active hoff, completeIf_goOn] at hstep
  refine ⟨_, hstep, ?_⟩
  have hu := hv.singleStep (decide ((quietTick t rest s).enc.toInt <
    (anglePosToEncoder (quietTick t rest s).axes.ang.tgt (quietTick t rest s)).toInt))
  rw [quietEnd_shape]
  exact ⟨hu.mode, hu.loaded, hu.corr, hu.settle, hu.active, hu.off, hu.queue, hu.enc⟩

/-- Settles O43: every silent tick with a still encoder leaves the correction going on, and so does every number of
them. -/
theorem correctionMayNeverEnd : Obligations.CorrectionMayNeverEnd := by
  intro s hmode hloaded hcorr hsettle hact hoff hframer hq hticks n
  obtain ⟨t, ht, -, hp⟩ := runSteps_induct
    (step_of_silent (kind := fun t => t.encDelta = 0#32) fun _ _ rest h hk => Correcting.next h hk rest) n
    (s := s) ⟨⟨hq, hframer, hticks⟩, ⟨hmode, hloaded, hcorr, hsettle, hact, hoff, rfl, rfl⟩⟩
  exact ⟨t, ht, hp.mode, hp.loaded, hp.corr, hp.queue, hp.enc⟩

/-! ### Homing to its end -/

/-- Each axis that has homed stands at its reference, AMP at `m` (R200, R201). -/
def AtReference (m : Word) (s : State) : Prop :=
  (s.sweep.homed.amp = true → s.axes.amp.pos = m ∧ s.axes.amp.tgt = m) ∧
  (s.sweep.homed.ang = true → s.axes.ang.pos = 0#32 ∧ s.axes.ang.tgt = 0#32)

/-- A homing tick snaps an axis to its reference where it homes it. -/
theorem AtReference.homingTick {s : State} (h : AtReference s.cal.minAmp s) :
    AtReference s.cal.minAmp (homingTick s) := by
  obtain ⟨hamp, hang⟩ := h
  have keep {a : Axis} (hsnap : snapsNow s a = false) (hh : (s.sweep.homed.get a || snapsNow s a) = true) :
      s.sweep.homed.get a = true ∧ homesNow s a = false := by
    rw [hsnap, Bool.or_false] at hh
    refine ⟨hh, ?_⟩
    rw [← Bool.not_eq_true, homesNow_iff, hh]
    exact fun h => absurd h.1 (by decide)
  refine ⟨fun hh => ?amp, fun hh => ?ang⟩
  case amp =>
    cases hsnap : snapsNow s .amp with
    | true => simp [Sys2Proof.Machine.homingTick, hsnap]
    | false =>
      obtain ⟨h1, h2⟩ := keep hsnap hh
      simpa [Sys2Proof.Machine.homingTick, hsnap, h2] using hamp h1
  case ang =>
    cases hsnap : snapsNow s .ang with
    | true => simp [Sys2Proof.Machine.homingTick, hsnap]
    | false =>
      obtain ⟨h1, h2⟩ := keep hsnap hh
      simpa [Sys2Proof.Machine.homingTick, hsnap, h2] using hang h1

/-- A homing run after `j` ticks with both zero switches pressed: both counters have counted them, and it is over at
the latest after DEBOUNCE_K. -/
structure HomingRun (m : Word) (j : Nat) (s : State) : Prop where
  az : j ≤ s.sw.az.cnt
  gz : j ≤ s.sw.gz.cnt
  azLe : s.sw.az.cnt ≤ s.cfg.debounceK
  gzLe : s.sw.gz.cnt ≤ s.cfg.debounceK
  minAmp : s.cal.minAmp = m
  atReference : AtReference m s
  mode : s.mode = .homing ∧ j < s.cfg.debounceK ∨ s.mode = .idle ∧ s.sweep.homed = ⟨true, true⟩

/-- With both zero switches confirmed, every axis is homed after a homing tick. -/
theorem homingTick_homed {s : State} (haz : debPressed .az s) (hgz : debPressed .gz s) :
    (homingTick s).sweep.homed = ⟨true, true⟩ := by
  have homed (a : Axis) (hp : debPressed (zeroSwitch a) s) : (s.sweep.homed.get a || snapsNow s a) = true := by
    cases hh : s.sweep.homed.get a
    · rw [Bool.false_or]
      exact snapsNow_iff.2 ⟨hh, hp⟩
    · rfl
  exact PerAxis.eq_true_iff.2 ⟨homed .amp haz, homed .ang hgz⟩

/-- A homing run through a tick with both zero switches pressed. -/
theorem HomingRun.next {m : Word} {j : Nat} {s : State} {t : TickIn} (h : HomingRun m j s)
    (hj : j + 1 ≤ s.cfg.debounceK) (haz : t.swRaw.az = s.cfg.swActiveLevel)
    (hgz : t.swRaw.gz = s.cfg.swActiveLevel) (rest : List TickIn) :
    ∃ u, modeStep (quietTick t rest s) = .next u ∧ HomingRun m (j + 1) (quietEnd u) := by
  have hcounts := h.az
  have hcounts' := h.gz
  have hazCnt : (quietTick t rest s).sw.az.cnt = min (s.sw.az.cnt + 1) s.cfg.debounceK := by
    rw [quietTick_az, SwitchRegs.poll_cnt, if_pos haz]
  have hgzCnt : (quietTick t rest s).sw.gz.cnt = min (s.sw.gz.cnt + 1) s.cfg.debounceK := by
    rw [quietTick_gz, SwitchRegs.poll_cnt, if_pos hgz]
  have href : AtReference (quietTick t rest s).cal.minAmp (quietTick t rest s) := by
    simpa [AtReference, h.minAmp] using h.atReference
  have hcal : (quietTick t rest s).cal.minAmp = m := by rw [quietTick_cal, h.minAmp]
  have close {u : State} (hu : modeStep (quietTick t rest s) = .next u) (hmin : u.cal.minAmp = m)
      (hat : AtReference m u)
      (hmode : u.mode = .homing ∧ j + 1 < u.cfg.debounceK ∨ u.mode = .idle ∧ u.sweep.homed = ⟨true, true⟩) :
      ∃ u, modeStep (quietTick t rest s) = .next u ∧ HomingRun m (j + 1) (quietEnd u) := by
    have k := modeStep_sameInput hu
    refine ⟨u, hu, ?_⟩
    rw [quietEnd_shape]
    have hcfg : u.cfg = s.cfg := k.cfg.trans (quietTick_cfg t rest s)
    refine ⟨?_, ?_, ?_, ?_, hmin, hat, hmode⟩ <;> simp only [k.sw, hazCnt, hgzCnt, hcfg] <;> omega
  rcases h.mode with ⟨hmode, -⟩ | ⟨hmode, hhomed⟩
  · have hmode' : (quietTick t rest s).mode = .homing := by rw [quietTick_mode, hmode]
    have hstep := modeStep_of_homing (.inl hmode')
    have hat := href.homingTick
    rw [hcal] at hat
    rcases homeStep_transitions (quietTick t rest s) with ⟨hdone, -, r⟩ | ⟨-, hnot, -⟩ | ⟨hnot, r⟩
    · rw [r] at hstep
      exact close hstep hcal hat (.inr ⟨rfl, hdone⟩)
    · exact absurd hmode' hnot
    · rw [r] at hstep
      refine close hstep hcal hat (.inl ⟨hmode', ?_⟩)
      show j + 1 < (quietTick t rest s).cfg.debounceK
      rw [quietTick_cfg]
      refine lt_of_le_of_ne hj fun hlast => hnot (homingTick_homed ?_ ?_)
      · show (quietTick t rest s).sw.az.cnt = (quietTick t rest s).cfg.debounceK
        rw [hazCnt, quietTick_cfg]
        omega
      · show (quietTick t rest s).sw.gz.cnt = (quietTick t rest s).cfg.debounceK
        rw [hgzCnt, quietTick_cfg]
        omega
  · have hmode' : (quietTick t rest s).mode = .idle := by rw [quietTick_mode, hmode]
    have hstep : modeStep (quietTick t rest s) = .next (quietTick t rest s) := by rw [modeStep, hmode']
    exact close hstep hcal (hcal ▸ href) (.inr ⟨hmode', by rw [quietTick_sweep, hhomed]⟩)

/-- The ticks that are left of a homing run bring it to its end. -/
theorem HomingRun.ends {m : Word} {active : Bool} (n : Nat) :
    ∀ {j : Nat} {s : State}, HomingRun m j s → j + n = s.cfg.debounceK → s.cfg.swActiveLevel = active →
      Silent (fun t => t.swRaw.az = active ∧ t.swRaw.gz = active) s → n ≤ s.ticks.length →
      ∃ t, runSteps n s = .next t ∧ HomingRun m t.cfg.debounceK t := by
  induction n with
  | zero =>
    intro j s h hj _ _ _
    exact ⟨s, rfl, hj ▸ h⟩
  | succ n ih =>
    intro j s h hj hactive hs hlen
    cases hticks : s.ticks with
    | nil =>
      rw [hticks] at hlen
      exact absurd hlen (by simp)
    | cons t rest =>
      rw [hticks, List.length_cons] at hlen
      obtain ⟨haz, hgz⟩ := hs.ticks t (by rw [hticks]; exact List.mem_cons_self)
      obtain ⟨u, hu, hrun⟩ := h.next (by omega) (haz.trans hactive.symm) (hgz.trans hactive.symm) rest
      obtain ⟨hs', hrest⟩ := hs.next hticks hu
      have hcfg : (quietEnd u).cfg = s.cfg := by rw [quietEnd_cfg, (modeStep_sameInput hu).cfg, quietTick_cfg]
      obtain ⟨v, hv, hend⟩ := ih hrun (by rw [hcfg]; omega) (by rw [hcfg, hactive]) hs' (by rw [hrest]; omega)
      refine ⟨v, ?_, hend⟩
      rw [runSteps_succ, step_of_quiet hs.link hs.framer hticks hu]
      exact hv

/-- Settles O48: a fresh homing run is one after 0 ticks, and after DEBOUNCE_K it cannot be in Homing. -/
theorem homingFinishes : Obligations.HomingFinishes := by
  intro s hvalid hsw hmode hhomed hframer hq hlen hticks
  obtain ⟨-, -, ⟨hk, -⟩, -⟩ := hvalid
  obtain ⟨haz, -, hgz, -⟩ := hsw
  have hstart : HomingRun s.cal.minAmp 0 s := by
    refine ⟨Nat.zero_le _, Nat.zero_le _, haz, hgz, rfl, ?_, .inl ⟨hmode, hk⟩⟩
    simp [AtReference, hhomed]
  obtain ⟨t, ht, hend⟩ := hstart.ends s.cfg.debounceK (Nat.zero_add _) rfl ⟨hq, hframer, hticks⟩ hlen
  obtain ⟨hidle, hdone⟩ := hend.mode.resolve_left fun h => absurd h.2 (lt_irrefl _)
  obtain ⟨hamp, hang⟩ := hend.atReference
  rw [hdone] at hamp hang
  exact ⟨t, ht, hidle, (hamp rfl).1, (hamp rfl).2, (hang rfl).1, (hang rfl).2, hdone⟩

/-! ### The end of the dispatch hold -/

/-- A frame that is held stops the input phase at its start (R235, R236). -/
theorem inputPhase_of_held {s : State} (hst : s.framer.st = .pending) (hroom : ¬ replyRoom s) (bs : List Byte) :
    inputPhase bs s = .next s := by
  rw [inputPhase, if_pos hst, if_neg hroom]

/-- A tick at which the frame is held for room takes no byte, and drains one where the transport accepts it (R235,
R248). -/
theorem step_of_held {s : State} {t : TickIn} {rest : List TickIn} (h : Inv s) (hst : s.framer.st = .pending)
    (hroom : ¬ replyRoom s) (hticks : s.ticks = t :: rest) (hready : t.outReady = true) :
    ∃ u, step s = .next u ∧ Inv u ∧ u.framer = s.framer ∧ u.cfg = s.cfg ∧ u.obuf = s.obuf.tail ∧ u.ticks = rest := by
  obtain ⟨u, hu⟩ := stepNeverStops s h
  have hu' := hu
  rw [step_of_ticks hticks] at hu'
  obtain ⟨v, w, hv, hw, rfl⟩ := transportTick_eq_next.1 hu'
  have hhold : inputPhase ((s.setTicks rest).rx ++ t.inBytes) (beginTick t (s.setTicks rest)) =
      .next (beginTick t (s.setTicks rest)) :=
    inputPhase_of_held (s := beginTick t (s.setTicks rest)) hst hroom _
  rw [hhold, Host.Outcome.next.injEq] at hv
  subst hv
  have k := afterInput_keeps hw
  refine ⟨_, hu, stepKeepsInv s _ h hu, k.framer, k.cfg, ?_, k.ticks⟩
  rw [State.setRx_obuf, k.obuf, outputDrain_obuf, if_pos hready]
  rfl

/-- A tick that begins with a pending frame and room dispatches it, so its output record holds a diagnostic (R276). -/
theorem step_of_room {s : State} {t : TickIn} {rest : List TickIn} (h : Inv s) (hst : s.framer.st = .pending)
    (hroom : replyRoom s) (hticks : s.ticks = t :: rest) : ∃ u, step s = .next u ∧ u.out.diag ≠ [] := by
  obtain ⟨u, hu⟩ := stepNeverStops s h
  have hu' := hu
  rw [step_of_ticks hticks] at hu'
  obtain ⟨v, w, hv, hw, rfl⟩ := transportTick_eq_next.1 hu'
  have hdispatch {a b : State} (hd : dispatchFrame a = .next b) : b.out.diag ≠ [] := by
    obtain ⟨bytes, d, -, hout, -⟩ := dispatchAnswersOnce a b hd
    rw [hout]
    exact List.append_ne_nil_of_right_ne_nil _ (List.cons_ne_nil _ _)
  rw [inputPhase_of_room (s := beginTick t (s.setTicks rest)) hst hroom] at hv
  obtain ⟨x, hx, hloop⟩ := andThen_eq_next.1 hv
  have hdiag : v.out.diag ≠ [] :=
    inputLoop_induct (P := fun a => a.out.diag ≠ []) (fun _ _ ha => ha) (fun _ _ _ hd => hdispatch hd) _
      (hdispatch hx) hloop
  exact ⟨_, hu, by rw [State.setRx_out, (afterInput_keeps hw).diag]; exact hdiag⟩

/-- A frame held until `n` more bytes of OBUF are free is dispatched after `n` accepting ticks. -/
theorem hold_ends (n : Nat) :
    ∀ {s : State}, Inv s → s.framer.st = .pending → (∀ t ∈ s.ticks, t.outReady = true) →
      s.obuf.length + 95 - s.cfg.outBufLen = n → n < s.ticks.length →
      (∀ k, k ≤ n → ∃ u, runSteps k s = .next u ∧ u.framer = s.framer) ∧
      ∃ t, runSteps (n + 1) s = .next t ∧ t.out.diag ≠ [] := by
  induction n with
  | zero =>
    intro s h hst _ hlack hlen
    obtain ⟨t, rest, hticks⟩ := List.exists_cons_of_length_pos hlen
    have hroom : replyRoom s := by
      rw [replyRoom, maxReplyLen]
      omega
    obtain ⟨u, hu, hdiag⟩ := step_of_room h hst hroom hticks
    refine ⟨fun k hk => ⟨s, by rw [Nat.le_zero.1 hk]; rfl, rfl⟩, u, ?_, hdiag⟩
    rw [runSteps_succ, hu]
    rfl
  | succ n ih =>
    intro s h hst hready hlack hlen
    obtain ⟨t, rest, hticks⟩ := List.exists_cons_of_length_pos (Nat.zero_lt_of_lt hlen)
    have hroom : ¬ replyRoom s := by
      rw [replyRoom, maxReplyLen]
      omega
    rw [hticks] at hready hlen
    obtain ⟨u, hu, hinv, hframer, hcfg, hobuf, hrest⟩ := step_of_held h hst hroom hticks (hready t List.mem_cons_self)
    have hlack' : u.obuf.length + 95 - u.cfg.outBufLen = n := by
      rw [hobuf, hcfg, List.length_tail]
      have ⟨_, _, _, _, _, hout, _⟩ := h.cfg
      rw [maxReplyLen] at hout
      omega
    obtain ⟨hwait, v, hv, hdiag⟩ := ih hinv (by rw [hframer]; exact hst)
      (by rw [hrest]; exact fun t' h' => hready t' (List.mem_cons_of_mem t h')) hlack'
      (by rw [hrest]; simpa using hlen)
    refine ⟨fun k hk => ?_, v, by rw [runSteps_succ, hu]; exact hv, hdiag⟩
    cases k with
    | zero => exact ⟨s, rfl, rfl⟩
    | succ k =>
      obtain ⟨w, hw, hwf⟩ := hwait k (Nat.le_of_succ_le_succ hk)
      exact ⟨w, by rw [runSteps_succ, hu]; exact hw, hwf.trans hframer⟩

/-- Settles O59: OBUF lacks at most 95 bytes because it is in range, and each accepting tick frees one. -/
theorem dispatchHoldEnds : Obligations.DispatchHoldEnds := by
  intro s h hst hready hlen
  have hfifo : s.obuf.length ≤ s.cfg.outBufLen := h.fifo
  obtain ⟨hwait, hdone⟩ := hold_ends _ h hst hready rfl hlen
  exact ⟨by omega, hwait, hdone⟩

end Sys2Proof.Machine

/-! PROOFS. The binary32 rounding: a rational lies between two neighbouring binary32 numbers, and the nearer is chosen;
and the amplitude derivation with the operations behind it. -/

namespace Sys2Proof.Machine

/-! ### The numbers the magnitude bits stand for -/

/-- The number of units, by a place `q` and an integer of at most 24 bits at that place; the next place begins where
the 24 bits end. -/
theorem magUnits_eq {q k : Nat} (hk : k ≤ 2 ^ 24) (h : q = 0 ∨ 2 ^ 23 ≤ k) :
    magUnits (q * 2 ^ 23 + k) = k * 2 ^ q := by
  rcases lt_or_ge k (2 ^ 23) with hlt | hge
  · obtain rfl := h.resolve_right (by omega)
    rw [Nat.zero_mul, Nat.zero_add, magUnits, if_pos hlt, pow_zero, mul_one]
  · rw [magUnits, if_neg (by omega)]
    rcases hk.lt_or_eq with hlt | rfl
    · have hmod : (q * 2 ^ 23 + k) % 2 ^ 23 = k - 2 ^ 23 := by omega
      have hdiv : (q * 2 ^ 23 + k) / 2 ^ 23 - 1 = q := by omega
      rw [hmod, hdiv, Nat.sub_add_cancel hge]
    · have hmod : (q * 2 ^ 23 + 2 ^ 24) % 2 ^ 23 = 0 := by omega
      have hdiv : (q * 2 ^ 23 + 2 ^ 24) / 2 ^ 23 - 1 = q + 1 := by omega
      rw [hmod, hdiv, Nat.zero_add, pow_succ 2 q, ← mul_assoc, mul_right_comm, ← pow_succ]

/-- Every magnitude is such a place and integer. -/
theorem exists_place (m : Nat) : ∃ q k, m = q * 2 ^ 23 + k ∧ k < 2 ^ 24 ∧ (q = 0 ∨ 2 ^ 23 ≤ k) := by
  rcases lt_or_ge m (2 ^ 23) with hlt | hge
  · exact ⟨0, m, by omega, by omega, .inl rfl⟩
  · exact ⟨m / 2 ^ 23 - 1, m % 2 ^ 23 + 2 ^ 23, by omega, by omega, .inr (by omega)⟩

/-- Greater magnitude bits stand for a greater number. -/
theorem magUnits_strictMono : StrictMono magUnits := by
  refine strictMono_nat_of_lt_succ fun m => ?_
  obtain ⟨q, k, rfl, hk, h⟩ := exists_place m
  rw [magUnits_eq hk.le h, Nat.add_assoc, magUnits_eq hk (h.imp_right fun h => h.trans (Nat.le_succ k))]
  exact Nat.mul_lt_mul_of_pos_right (Nat.lt_succ_self k) (Nat.two_pow_pos q)

/-! ### The rounding -/

/-- The exponent of the last place of a rounding, above 2^-149. -/
def lastPlace (x d : Nat) : Nat := Nat.log2 (x / d) - 23

/-- The quotient at the last place has at most 24 bits, and exactly 24 above the least place. -/
theorem quotient_range (x d : Nat) :
    x / (d * 2 ^ lastPlace x d) < 2 ^ 24 ∧ (lastPlace x d = 0 ∨ 2 ^ 23 ≤ x / (d * 2 ^ lastPlace x d)) := by
  rw [← Nat.div_div_eq_div_mul, lastPlace]
  set u := x / d
  have hlt : u < 2 ^ (u.log2 + 1) := Nat.lt_log2_self
  rcases le_or_gt u.log2 23 with hle | hgt
  · rw [Nat.sub_eq_zero_of_le hle, pow_zero, Nat.div_one]
    exact ⟨hlt.trans_le (Nat.pow_le_pow_right two_pos (by omega)), .inl rfl⟩
  · have hu : u ≠ 0 := by
      intro h0
      rw [h0, Nat.log2_zero] at hgt
      omega
    have hlog := Nat.log2_self_le hu
    obtain ⟨q, hq⟩ := Nat.exists_eq_add_of_le hgt.le
    rw [hq] at hlt hlog ⊢
    rw [Nat.add_sub_cancel_left]
    refine ⟨(Nat.div_lt_iff_lt_mul (Nat.two_pow_pos q)).2 ?_, .inr ((Nat.le_div_iff_mul_le (Nat.two_pow_pos q)).2 ?_)⟩
    · rwa [← pow_add, show 24 + q = 23 + q + 1 by omega]
    · rwa [← pow_add]

/-- A rounding to an integer takes the quotient or the next integer, whichever is nearer, and the even one of two
equally near (R15). -/
theorem roundEven_cases (n d : Nat) :
    (roundEven n d = n / d ∧ (2 * (n % d) < d ∨ 2 * (n % d) = d ∧ n / d % 2 = 0)) ∨
    (roundEven n d = n / d + 1 ∧ (d < 2 * (n % d) ∨ 2 * (n % d) = d ∧ n / d % 2 = 1)) := by
  unfold roundEven
  split_ifs with h1 h2
  · exact .inl ⟨rfl, .inl h1⟩
  · exact .inr ⟨rfl, .inl h2⟩
  · have htie : 2 * (n % d) = d := by omega
    rcases Nat.mod_two_eq_zero_or_one (n / d) with h | h <;> rw [h]
    · exact .inl ⟨rfl, .inr ⟨htie, rfl⟩⟩
    · exact .inr ⟨rfl, .inr ⟨htie, rfl⟩⟩

/-- The rounding before the overflow is seen. -/
def roundedMag (x d : Nat) : Nat := lastPlace x d * 2 ^ 23 + roundEven x (d * 2 ^ lastPlace x d)

theorem f32RoundMag_eq (n d : Nat) : f32RoundMag n d = min (roundedMag (n * 2 ^ 149) d) f32InfMag := rfl

/-- A number lies between two neighbours `f lo` and `f (lo + 1)`, and `r` is the nearer of them, the even one where they
are equally near. -/
structure Bracketed (f : Nat → Int) (x : Int) (lo r : Nat) : Prop where
  lower : f lo ≤ x
  upper : x < f (lo + 1)
  nearer :
    r = lo ∧ (2 * x < f lo + f (lo + 1) ∨ 2 * x = f lo + f (lo + 1) ∧ r % 2 = 0) ∨
    r = lo + 1 ∧ (f lo + f (lo + 1) < 2 * x ∨ 2 * x = f lo + f (lo + 1) ∧ r % 2 = 0)

/-- Of all the values of a strictly rising `f` the chosen neighbour is a nearest, and the even one where another is as
near. -/
theorem Bracketed.nearest {f : Nat → Int} (hf : StrictMono f) {x : Int} {lo r : Nat} (h : Bracketed f x lo r) {m : Nat}
    (hm : m ≠ r) : |x - f r| < |x - f m| ∨ (|x - f r| = |x - f m| ∧ r % 2 = 0) := by
  obtain ⟨hlower, hupper, hnear⟩ := h
  have hbelow {i : Nat} (hi : i ≤ lo) : |x - f i| = x - f i :=
    abs_of_nonneg (by have := hf.monotone hi; omega)
  have habove {i : Nat} (hi : lo + 1 ≤ i) : |x - f i| = f i - x := by
    rw [abs_sub_comm]
    exact abs_of_nonneg (by have := hf.monotone hi; omega)
  rcases hnear with ⟨rfl, hnear⟩ | ⟨rfl, hnear⟩
  · rw [hbelow le_rfl]
    rcases lt_or_ge m r with hlt | hge
    · rw [hbelow hlt.le]
      have := hf hlt
      omega
    · have hgt : r + 1 ≤ m := Nat.lt_of_le_of_ne hge hm.symm
      rw [habove hgt]
      have := hf.monotone hgt
      omega
  · rw [habove le_rfl]
    rcases Nat.lt_or_ge lo m with hlt | hle
    · rw [habove hlt]
      have : f (lo + 1) < f m := hf (Nat.lt_of_le_of_ne hlt hm.symm)
      omega
    · rw [hbelow hle]
      have := hf.monotone hle
      omega

/-- The units of the magnitudes, times `d`. -/
def scaledUnits (d m : Nat) : Int := magUnits m * d

theorem scaledUnits_strictMono {d : Nat} (hd : 0 < d) : StrictMono (scaledUnits d) := by
  intro i j hij
  exact mul_lt_mul_of_pos_right (Int.ofNat_lt.2 (magUnits_strictMono hij)) (Int.natCast_pos.2 hd)

/-- The lower neighbour of a rounding: its quotient at the last place. -/
def lowerMag (x d : Nat) : Nat := lastPlace x d * 2 ^ 23 + x / (d * 2 ^ lastPlace x d)

/-- A rounding is the nearer of the quotient and the next integer, at the last place. -/
theorem roundedMag_bracketed {d : Nat} (hd : 0 < d) (x : Nat) :
    Bracketed (scaledUnits d) x (lowerMag x d) (roundedMag x d) := by
  obtain ⟨hlt, hge⟩ := quotient_range x d
  have hcases := roundEven_cases x (d * 2 ^ lastPlace x d)
  rw [roundedMag, lowerMag]
  set q := lastPlace x d
  set D := d * 2 ^ q with hD
  set a := x / D
  have hDpos : 0 < D := Nat.mul_pos hd (Nat.two_pow_pos q)
  have hlo : scaledUnits d (q * 2 ^ 23 + a) = (D * a : Nat) := by
    rw [scaledUnits, magUnits_eq hlt.le hge, ← Nat.cast_mul, hD, mul_comm, mul_comm a, mul_assoc]
  have hhi : scaledUnits d (q * 2 ^ 23 + a + 1) = (D * a + D : Nat) := by
    rw [scaledUnits, Nat.add_assoc, magUnits_eq hlt (hge.imp_right fun h => h.trans (Nat.le_succ a)),
      ← Nat.cast_mul, mul_comm, mul_comm (a + 1), ← mul_assoc, ← hD, Nat.mul_succ]
  have hx : D * a + x % D = x := Nat.div_add_mod x D
  have hmod : x % D < D := Nat.mod_lt x hDpos
  refine ⟨by rw [hlo]; omega, by rw [hhi]; omega, ?_⟩
  rw [hlo, hhi]
  rcases hcases with ⟨e, h⟩ | ⟨e, h⟩ <;> rw [e]
  · exact .inl ⟨rfl, by omega⟩
  · exact .inr ⟨(Nat.add_assoc _ _ _).symm, by omega⟩

/-- The last places around the overflow: with `T` the threshold's last place, each place is at most `T`, twice `T`, or
at least four times `T`. -/
theorem place_cases (d q : Nat) :
    (q ≤ 252 ∧ d * 2 ^ q ≤ 2 ^ 252 * d) ∨ (q = 253 ∧ d * 2 ^ q = 2 * (2 ^ 252 * d)) ∨
    (254 ≤ q ∧ 4 * (2 ^ 252 * d) ≤ d * 2 ^ q) := by
  rw [mul_comm (2 ^ 252) d]
  rcases Nat.lt_trichotomy q 253 with h | rfl | h
  · exact .inl ⟨by omega, Nat.mul_le_mul_left d (Nat.pow_le_pow_right two_pos (by omega))⟩
  · exact .inr (.inl ⟨rfl, by rw [mul_left_comm, ← pow_succ']⟩)
  · refine .inr (.inr ⟨h, ?_⟩)
    rw [mul_left_comm, show 4 * 2 ^ 252 = 2 ^ 254 from (pow_add 2 2 252).symm]
    exact Nat.mul_le_mul_left d (Nat.pow_le_pow_right two_pos h)

/-- A rounding reaches the infinities exactly from the overflow threshold on (R15). -/
theorem f32InfMag_le_roundedMag_iff {x d : Nat} (hd : 0 < d) :
    f32InfMag ≤ roundedMag x d ↔ (2 ^ 25 - 1) * 2 ^ 252 * d ≤ x := by
  obtain ⟨hlt, hge⟩ := quotient_range x d
  have hcases := roundEven_cases x (d * 2 ^ lastPlace x d)
  have hplace := place_cases d (lastPlace x d)
  have hinf : f32InfMag = 255 * 2 ^ 23 := rfl
  rw [roundedMag, hinf, mul_assoc]
  generalize hT : 2 ^ 252 * d = T at *
  generalize lastPlace x d = q at *
  generalize hD : d * 2 ^ q = D at *
  have hDpos : 0 < D := hD ▸ Nat.mul_pos hd (Nat.two_pow_pos q)
  have hx : D * (x / D) + x % D = x := Nat.div_add_mod x D
  have hmod : x % D < D := Nat.mod_lt x hDpos
  generalize x / D = a at *
  have hup {k : Nat} (hk : a < k) : D * a + D ≤ D * k := Nat.mul_le_mul_left D hk
  have hdown {k : Nat} (hk : k ≤ a) : D * k ≤ D * a := Nat.mul_le_mul_left D hk
  rcases hplace with ⟨hq, hDT⟩ | ⟨hq, hDT⟩ | ⟨hq, hDT⟩
  · have := hup hlt
    omega
  · rcases Nat.lt_or_ge a (2 ^ 24 - 1) with ha | ha
    · have := hup ha
      omega
    · obtain rfl : a = 2 ^ 24 - 1 := by omega
      omega
  · have := hdown (hge.resolve_left (by omega))
    omega

/-- Settles O52: the rounding is the nearer neighbour, cut at the infinities exactly from the threshold on. -/
theorem roundsToNearestEven : Obligations.RoundsToNearestEven := by
  intro n d hd
  rw [f32RoundMag_eq]
  refine ⟨fun hover => min_eq_right ((f32InfMag_le_roundedMag_iff hd).2 hover), fun hunder => ?_⟩
  have hlt := lt_of_not_ge fun h => hunder.not_ge ((f32InfMag_le_roundedMag_iff hd).1 h)
  rw [min_eq_left hlt.le]
  exact ⟨hlt, fun m _ hm => (roundedMag_bracketed hd _).nearest (scaledUnits_strictMono hd) hm⟩

end Sys2Proof.Machine

/-! PROOFS. The amplitude derivation, and the binary32 operations behind it read by sign and magnitude. -/

namespace Sys2Proof.Machine

/-! ### The operations on finite operands -/

/-- The units of a binary32 are those of its magnitude bits. -/
theorem f32Units_eq (x : Word) : f32Units x = magUnits (f32Mag x) := by
  rw [f32Units, f32Exp_eq, f32Frac_eq, magUnits, f32Mag]
  have hzero : x.toNat % 2 ^ 31 / 2 ^ 23 = 0 ↔ x.toNat % 2 ^ 31 < 2 ^ 23 := by omega
  simp only [hzero]
  split_ifs with h
  · exact Nat.mod_eq_of_lt h
  · rfl

/-- Only zero has no units. -/
theorem magUnits_eq_zero {m : Nat} : magUnits m = 0 ↔ m = 0 := magUnits_strictMono.injective.eq_iff' rfl

/-- What a packed number reads back as. -/
theorem f32Pack_reads (neg : Bool) {mag : Nat} (h : mag < 2 ^ 31) :
    f32Mag (f32Pack neg mag) = mag ∧ (f32Pack neg mag).msb = neg := f32Pack_parts neg h

/-- The sign of a quotient or a product. -/
theorem f32Sign_bne (a b : Word) : (f32Sign a != f32Sign b) = (a.msb ^^ b.msb) :=
  congrFun (congrFun Bool.bne_eq_xor _) _

theorem f32NaN_above : 0x7F800000 < f32Mag f32NaN := f32NaN_mag

section
variable {a : Word} (ha : f32Mag a < 0x7F800000)
include ha

theorem not_f32IsNaN_of_finite : ¬ f32IsNaN a := fun h => absurd ((f32IsNaN_iff a).1 h) ha.not_gt

theorem not_f32IsInf_of_finite : ¬ f32IsInf a := fun h => absurd ((f32IsInf_iff a).1 h) ha.ne

variable {b : Word} (hb : f32Mag b < 0x7F800000)
include hb

/-- A quotient of finite operands is decided by which of them are zero (R15). -/
theorem f32Div_of_finite :
    f32Div a b =
      if f32Mag b = 0 then (if f32Mag a = 0 then f32NaN else f32Pack (a.msb ^^ b.msb) f32InfMag)
      else f32Pack (a.msb ^^ b.msb) (f32RoundMag (magUnits (f32Mag a)) (magUnits (f32Mag b))) := by
  have hnan : ¬ (f32IsNaN a ∨ f32IsNaN b) := fun h => h.elim (not_f32IsNaN_of_finite ha) (not_f32IsNaN_of_finite hb)
  simp only [f32Div, if_neg hnan, if_neg (not_f32IsInf_of_finite ha), if_neg (not_f32IsInf_of_finite hb), f32Sign_bne,
    f32Units_eq, magUnits_eq_zero]

/-- A product of finite operands is the exact one, rounded (R15). -/
theorem f32Mul_of_finite :
    f32Mul a b =
      f32Pack (a.msb ^^ b.msb) (f32RoundMag (magUnits (f32Mag a) * magUnits (f32Mag b)) (2 ^ 298)) := by
  have hnan : ¬ (f32IsNaN a ∨ f32IsNaN b) := fun h => h.elim (not_f32IsNaN_of_finite ha) (not_f32IsNaN_of_finite hb)
  have hpow : 2 ^ 149 * 2 ^ 149 = 2 ^ 298 := by rw [← pow_add]
  simp only [f32Mul, if_neg hnan, if_neg (not_f32IsInf_of_finite ha), if_neg (not_f32IsInf_of_finite hb), f32Sign_bne,
    f32Units_eq, hpow]

end

/-- A product with an infinity is an infinity, or of zero a NaN (R15). -/
theorem f32Mul_of_inf {a b : Word} (ha : f32Mag a < 0x7F800000) (hb : f32Mag b = 0x7F800000) :
    f32Mul a b = if f32Mag a = 0 then f32NaN else f32Pack (a.msb ^^ b.msb) f32InfMag := by
  have hnan : ¬ (f32IsNaN a ∨ f32IsNaN b) :=
    fun h => h.elim (not_f32IsNaN_of_finite ha) fun h => absurd ((f32IsNaN_iff b).1 h) hb.le.not_gt
  simp only [f32Mul, if_neg hnan, if_neg (not_f32IsInf_of_finite ha), if_pos ((f32IsInf_iff b).2 hb), f32Sign_bne,
    f32Units_eq, magUnits_eq_zero]

/-- A truncation in ℤ is the quotient toward zero of the signed units (R15). -/
theorem f32Trunc_eq (x : Word) :
    f32Trunc x = (if x.msb then -(magUnits (f32Mag x) : Int) else magUnits (f32Mag x)).tdiv (2 ^ 149) := by
  have hdiv : (f32Units x / 2 ^ 149 : Nat) = (magUnits (f32Mag x) : Int).tdiv (2 ^ 149) := by
    rw [f32Units_eq]
    exact Int.ofNat_tdiv _ _
  rw [f32Trunc, f32Sign, apply_ite (fun z : Int => z.tdiv (2 ^ 149)), Int.neg_tdiv, ← hdiv]
  rfl

/-- A truncation has a value exactly where the operand is finite and the truncation is an int32. -/
theorem truncI32_eq_some {x v : Word} : truncI32 x = some v ↔ f32Finite x ∧ v.toInt = f32Trunc x := by
  unfold truncI32
  have hlo := BitVec.le_toInt v
  have hhi := BitVec.toInt_lt (x := v)
  constructor
  · intro h
    split_ifs at h with hc
    obtain ⟨hfin, h1, h2⟩ := hc
    rw [Option.some.injEq] at h
    rw [← h, wrap32, BitVec.toInt_ofInt_eq_self (by decide) h1 h2]
    exact ⟨hfin, rfl⟩
  · rintro ⟨hfin, hv⟩
    rw [← hv, if_pos ⟨hfin, hlo, hhi⟩, wrap32, BitVec.ofInt_toInt]

/-! ### The derivation -/

/-- MIN_AMP and the count of draws after the derivation are those of the truncation (R204). -/
theorem deriveAmp_trunc (s : State) :
    ((deriveAmp s).cal.minAmp, (deriveAmp s).draws) =
      ((truncOrDraw (f32Mul s.cfg.offsetMm (deriveAmp s).cal.spmm) s).1,
        (truncOrDraw (f32Mul s.cfg.offsetMm (deriveAmp s).cal.spmm) s).2.draws) := rfl

/-- Settles O50: the derivation by its shape and the truncation's two cases; each operation by its operands' kinds. -/
theorem amplitudeDerivation : Obligations.AmplitudeDerivation := by
  refine ⟨fun s => ?derivation, fun a b ha hb => ⟨fun hb0 => ?quotient, fun hb0 => ⟨fun ha0 => ?divZero, fun ha0 => ?zeroDiv⟩,
    ?product⟩, fun a b ha hb => ⟨fun ha0 => ?infinite, fun ha0 => ?zeroInf⟩, fun z => ?conversion, fun x v => ?truncation⟩
  case derivation =>
    have htrunc := deriveAmp_trunc s
    rw [Prod.mk.injEq] at htrunc
    obtain ⟨hmin, hdraws⟩ := htrunc
    have hcal := deriveAmp_cal s
    refine ⟨by rw [hcal], rfl, fun v hv => ?_, fun hn => ?_, ?_, ?_⟩
    · rcases truncOrDraw_cases (f32Mul s.cfg.offsetMm (deriveAmp s).cal.spmm) s with ⟨w, hw, e⟩ | ⟨hn, -⟩
      · rw [hmin, hdraws, e]
        exact ⟨Option.some.inj (hw.symm.trans hv), rfl⟩
      · rw [hn] at hv
        exact absurd hv (by simp)
    · rcases truncOrDraw_cases (f32Mul s.cfg.offsetMm (deriveAmp s).cal.spmm) s with ⟨w, hw, -⟩ | ⟨-, e⟩
      · rw [hw] at hn
        exact absurd hn (by simp)
      · rw [hmin, hdraws, e]
        exact ⟨rfl, rfl⟩
    · rw [BitVec.ofInt_add, BitVec.ofInt_toInt, BitVec.ofInt_toInt, hcal]
    · obtain ⟨m, d, e⟩ := deriveAmp_shape s
      rw [e]
  case quotient =>
    rw [f32Div_of_finite ha hb, if_neg hb0]
    exact f32Pack_reads _ (f32RoundMag_lt _ _)
  case divZero =>
    rw [f32Div_of_finite ha hb, if_pos hb0, if_neg ha0]
    exact f32Pack_reads _ (by decide)
  case zeroDiv =>
    rw [f32Div_of_finite ha hb, if_pos hb0, if_pos ha0]
    exact f32NaN_above
  case product =>
    rw [f32Mul_of_finite ha hb]
    exact f32Pack_reads _ (f32RoundMag_lt _ _)
  case infinite =>
    rw [f32Mul_of_inf ha hb, if_neg ha0]
    exact f32Pack_reads _ (by decide)
  case zeroInf =>
    rw [f32Mul_of_inf ha hb, if_pos ha0]
    exact f32NaN_above
  case conversion => exact f32Pack_reads _ (f32RoundMag_lt _ _)
  case truncation => rw [truncI32_eq_some, f32Finite_iff, f32Trunc_eq]; rfl

end Sys2Proof.Machine
